-- ==== Sys2Proof/Word.lean ====
section
/-! DEFINITION. The words and symbols of IRDS: the 64-bit command word and its operand widths
(30_encoding.md R80), the enumerations of 10_state.md and 30_encoding.md, and what crosses the ports:
the moves of the agents (20_memory.md R66) and the output events (30_encoding.md R92, R99). -/

namespace Sys2Proof

/-- The command word CMD[63:0] (30_encoding.md R80). -/
abbrev Word := BitVec 64

/-- The value half VAL[31:0] of a response, and the width of the IMM field (30_encoding.md R80, R92). -/
abbrev Val := BitVec 32

/-- A host callback handle, u(W_CB) with W_CB exactly 16 in this encoding (00_scope.md R9). -/
abbrev Handle := BitVec 16

/-- A job identifier as it travels in the 32-bit IMM and VAL fields; W_ID only bounds which ids
DrawId may return (00_scope.md R9, 44_scheduler.md R164). -/
abbrev JobId := BitVec 32

/-- A button code field, 9 bits (30_encoding.md R87). -/
abbrev ButtonCode := BitVec 9

/-- PROTO (00_scope.md R3, 10_state.md R25). -/
inductive Protocol where
  | nec
  | keyestudio
deriving DecidableEq, Repr

/-- The queue kind q, written PRIO and CBQ (00_scope.md R15). -/
inductive QueueKind where
  | prio
  | cbq
deriving DecidableEq, Repr

/-- The mode of a job: Once or Repeat (10_state.md R36). -/
inductive Mode where
  | once
  | repeating
deriving DecidableEq, Repr

/-- The transition kind of a binding: Pressed or Released (30_encoding.md R80, field K). -/
inductive Transition where
  | pressed
  | released
deriving DecidableEq, Repr

/-- The kind of an EDGE event (30_encoding.md R97). -/
inductive EdgeKind where
  | fall
  | rise
deriving DecidableEq, Repr

/-- A pin level, for the parameter MARK_LEVEL (00_scope.md R9). -/
inductive PinLevel where
  | high
  | low
deriving DecidableEq, Repr

/-- The status ST of a response. Status 1 is reserved and never produced, so it is no constructor
(30_encoding.md R92, 93_implementation_defined.md I12). -/
inductive Status where
  | ok
  | illegal
  | faulted
deriving DecidableEq, Repr, Inhabited

/-- A response word RSP, as its two fields (30_encoding.md R92). -/
structure Response where
  st : Status
  val : Val
deriving DecidableEq, Repr, Inhabited

/-- What IRDS sends to the host: the response of a command, and the INVOKE event, its only output
event (30_encoding.md R92, R99). -/
inductive Output where
  | response (r : Response)
  | invoke (q : QueueKind) (h : Handle)
deriving DecidableEq, Repr

/-- One atomic step of one agent (20_memory.md R66): a command of the host H, a PULSE or an EDGE for
the pulse path P, a TICK of the clock T, the RESET of R, or the one step that the loop of a queue
(LP or LC) has enabled. Durations and tick increments are exact naturals; `Move.Legal` of
Sys2Proof/WellFormed.lean holds them to the port's range. -/
inductive Move where
  | command (cmd : Word)
  | pulse (d : Nat)
  | edge (e : EdgeKind) (t : Nat)
  | tick (n : Nat)
  | reset
  | loop (q : QueueKind)
deriving DecidableEq, Repr, Inhabited

end Sys2Proof
end

