-- ==== Sys2Proof/Config.lean ====
section
/-! DEFINITION. What an implementation of IRDS fixes (the parameters of 00_scope.md R9), the fixed
constants of 00_scope.md R8, and the free values: what the spec leaves open, as constants without a
body, so that nothing can be proved about which value they take. -/

namespace Sys2Proof

/-- The parameters the spec leaves open (00_scope.md R9). W_CB and W_DELAY are exactly 16 and 32 in
this encoding and are the widths of `Handle` and of the IMM field. -/
structure Params where
  /-- W_DUR, the width of a duration. -/
  wDur : Nat
  /-- W_TIME, the width of the clock NOW. -/
  wTime : Nat
  /-- W_ID, the width of a job identifier. -/
  wId : Nat
  /-- POLL_INIT_MS, the initial minPollInterval. -/
  pollInitMs : Nat
  /-- JOB_CAP, the most live jobs of a queue. -/
  jobCap : Nat
  /-- INS_CAP, the most entries of a pending-insert buffer. -/
  insCap : Nat
  /-- REM_CAP, the most entries of a pending-removal buffer. -/
  remCap : Nat
  /-- BIND_CAP, the most bindings of one transition kind. -/
  bindCap : Nat
  /-- MARK_LEVEL, the pin level during a mark. -/
  markLevel : PinLevel
deriving DecidableEq, Repr

namespace Config

/-- The defaults of the last column of 00_scope.md R9. -/
def defaults : Params where
  wDur := 32
  wTime := 32
  wId := 32
  pollInitMs := 100
  jobCap := 16
  insCap := 16
  remCap := 32
  bindCap := 16
  markLevel := .high

/-- T_BIT1, in µs (00_scope.md R8). -/
abbrev tBit1 : Nat := 1600

/-- T_REPEAT, in µs (00_scope.md R8). -/
abbrev tRepeat : Nat := 2700

/-- T_START, in µs (00_scope.md R8). -/
abbrev tStart : Nat := 12500

/-- T_NOISE, in µs (00_scope.md R8). -/
abbrev tNoise : Nat := 14500

/-- REPEAT_TIMEOUT_MS (00_scope.md R8). -/
abbrev repeatTimeoutMs : Nat := 120

/-- WILDCARD, the code that matches any button (30_encoding.md R87). -/
abbrev wildcard : ButtonCode := 0x100

/-- FREE VALUE: which agent moves next, and with what input, when State's agenda lists no move. The
spec admits every interleaving (20_memory.md R68, 93_implementation_defined.md I3, I9, I10, I14, I15).
Applied to State's counter `choices`. -/
opaque freeMove : Nat → Move

/-- FREE VALUE: the identifier DrawId proposes; the draw is this id when it is fresh
(44_scheduler.md R164, 93_implementation_defined.md I1). Applied to State's counter `choices`. -/
opaque freeId : Nat → JobId

/-- FREE VALUE: the response of a command whose step refuses; 60_exceptions.md R236 gives the state
after it and no response. Applied to State's counter `choices`. -/
opaque freeResponse : Nat → Response

end Config

end Sys2Proof
end

