-- ==== Sys2Proof/Syntax.lean ====
section
/-! DEFINITION. The host commands of IRDS: one constructor per row of spec/opcode_table.json, with the
operands of 30_encoding.md R82 to R90. -/

namespace Sys2Proof

/-- A decoded host command (30_encoding.md R81). Operands stand as their fields give them
(30_encoding.md R93); DELAY is kept as its 32-bit field and read as a signed number by
`Machine.delayMs`. -/
inductive Instr where
  /-- NOP (30_encoding.md R82). -/
  | nop
  /-- CONNECT pr, pin (30_encoding.md R83). -/
  | connect (pr : Protocol) (pin : BitVec 8)
  /-- ON_BUTTON kind, code, cb, with the callback-present bit P (30_encoding.md R84). -/
  | onButton (present : Bool) (kind : Transition) (cb : Handle) (code : ButtonCode)
  /-- SCHEDULE q, mode, cb, delay, with the callback-present bit P (30_encoding.md R85). -/
  | schedule (present : Bool) (q : QueueKind) (mode : Mode) (cb : Handle) (delay : BitVec 32)
  /-- CANCEL q, id (30_encoding.md R86). -/
  | cancel (q : QueueKind) (id : JobId)
  /-- QUERY_DATAGRAM (30_encoding.md R88). -/
  | queryDatagram
  /-- READ_STATE sel, q (30_encoding.md R89). -/
  | readState (q : QueueKind) (sel : BitVec 4)
  /-- CB_RETURN q (30_encoding.md R90). -/
  | cbReturn (q : QueueKind)
deriving DecidableEq, Repr

end Sys2Proof
end

