-- ==== Sys2Proof/WellFormed.lean ====
section
/-! DEFINITION. Which operands are legal: the two field ranges that 30_encoding.md R91 (c) and (d)
exclude, which parameter values 00_scope.md R9 allows, and which moves the ports can carry. -/

namespace Sys2Proof

/-- A legal button code: 0x000 to 0x0FF or the wildcard 0x100; 0x101 to 0x1FF are reserved
(30_encoding.md R87). -/
def legalCode (code : ButtonCode) : Bool := decide (code.toNat ≤ 0x100)

/-- A legal READ_STATE selector: 0 to 11; 12 to 15 are reserved (30_encoding.md R89). -/
def legalSelector (sel : BitVec 4) : Bool := decide (sel.toNat < 12)

/-- The operand values an encoding may carry without being ILLEGAL by 30_encoding.md R91 (c) or (d).
R91 (e) depends on the state and is checked by CB_RETURN's meaning. -/
def Instr.wellFormed : Instr → Bool
  | .nop => true
  | .connect _ _ => true
  | .onButton _ _ _ code => legalCode code
  | .schedule _ _ _ _ _ => true
  | .cancel _ _ => true
  | .queryDatagram => true
  | .readState _ sel => legalSelector sel
  | .cbReturn _ => true

/-- The constraints of 00_scope.md R9, and the u32 width of MINPOLL, which POLL_INIT_MS must fit
(10_state.md R41). -/
structure Params.Legal (p : Params) : Prop where
  wDur_ge : 15 ≤ p.wDur
  wTime_ge : 8 ≤ p.wTime
  wTime_le : p.wTime ≤ 32
  wId_ge : 8 ≤ p.wId
  wId_le : p.wId ≤ 32
  pollInit_pos : 1 ≤ p.pollInitMs
  pollInit_lt : p.pollInitMs < 2 ^ 32
  jobCap_pos : 1 ≤ p.jobCap
  insCap_pos : 1 ≤ p.insCap
  remCap_pos : 1 ≤ p.remCap
  bindCap_pos : 1 ≤ p.bindCap

/-- Whether the ports can carry a move: a duration is u(W_DUR) (30_encoding.md R96, R97) and a TICK
advances the clock by n ≥ 1 (30_encoding.md R98). -/
def Move.legal (p : Params) : Move → Bool
  | .command _ => true
  | .pulse d => decide (d < 2 ^ p.wDur)
  | .edge _ t => decide (t < 2 ^ p.wDur)
  | .tick n => decide (1 ≤ n)
  | .reset => true
  | .loop _ => true

end Sys2Proof
end

