-- ==== Sys2Proof/Decode.lean ====
section
/-! DEFINITION. The command decoder and encoder, from 30_encoding.md R80 to R95. Decoding is total: a
word is one command or is ILLEGAL for a named reason. -/

namespace Sys2Proof

/-- Why a word is ILLEGAL whatever the state (30_encoding.md R91 (a) to (d)). -/
inductive IllegalReason where
  /-- OP is 0x8 to 0xF (R91 (a)). -/
  | reservedOpcode
  /-- A bit that the opcode's row does not use is not 0 (R91 (b)). -/
  | reservedBits
  /-- ON_BUTTON with CODE 0x101 to 0x1FF (R91 (c)). -/
  | reservedCode
  /-- READ_STATE with SEL 12 to 15 (R91 (d)). -/
  | reservedSelector
deriving DecidableEq, Repr

/-- OP = CMD[63:60] (30_encoding.md R80). -/
def opField (w : Word) : BitVec 4 := w.extractLsb' 60 4

/-- P = CMD[59], the callback present bit (30_encoding.md R80). -/
def presentField (w : Word) : Bool := w.getLsbD 59

/-- Q = CMD[58]: 0 = PRIO, 1 = CBQ (30_encoding.md R80). -/
def queueField (w : Word) : QueueKind := if w.getLsbD 58 then .cbq else .prio

/-- M = CMD[57]: 0 = Once, 1 = Repeat (30_encoding.md R80). -/
def modeField (w : Word) : Mode := if w.getLsbD 57 then .repeating else .once

/-- K = CMD[56]: 0 = Pressed, 1 = Released (30_encoding.md R80). -/
def kindField (w : Word) : Transition := if w.getLsbD 56 then .released else .pressed

/-- PR = CMD[55]: 0 = NEC, 1 = KEYESTUDIO (30_encoding.md R80). -/
def protocolField (w : Word) : Protocol := if w.getLsbD 55 then .keyestudio else .nec

/-- CB = CMD[47:32], the callback handle (30_encoding.md R80). -/
def handleField (w : Word) : Handle := w.extractLsb' 32 16

/-- IMM = CMD[31:0] (30_encoding.md R80): DELAY of SCHEDULE and ID of CANCEL. -/
def immField (w : Word) : BitVec 32 := w.extractLsb' 0 32

/-- CODE = IMM[8:0] (30_encoding.md R84). -/
def codeField (w : Word) : ButtonCode := w.extractLsb' 0 9

/-- PIN = CMD[7:0] (30_encoding.md R83). -/
def pinField (w : Word) : BitVec 8 := w.extractLsb' 0 8

/-- SEL = IMM[3:0] (30_encoding.md R89). -/
def selectorField (w : Word) : BitVec 4 := w.extractLsb' 0 4

/-- One row of the table of 30_encoding.md R91. -/
structure OpcodeRow where
  mtch : Word
  mask : Word
deriving DecidableEq, Repr

/-- The row of each opcode in use; 0x8 to 0xF have none (30_encoding.md R91). -/
def opcodeRow (op : BitVec 4) : Option OpcodeRow :=
  match op.toNat with
  | 0 => some { mtch := 0x0000000000000000, mask := 0xFFFFFFFFFFFFFFFF }
  | 1 => some { mtch := 0x1000000000000000, mask := 0xFF7FFFFFFFFFFF00 }
  | 2 => some { mtch := 0x2000000000000000, mask := 0xF6FF0000FFFFFE00 }
  | 3 => some { mtch := 0x3000000000000000, mask := 0xF1FF000000000000 }
  | 4 => some { mtch := 0x4000000000000000, mask := 0xFBFFFFFF00000000 }
  | 5 => some { mtch := 0x5000000000000000, mask := 0xFFFFFFFFFFFFFFFF }
  | 6 => some { mtch := 0x6000000000000000, mask := 0xFBFFFFFFFFFFFFF0 }
  | 7 => some { mtch := 0x7000000000000000, mask := 0xFBFFFFFFFFFFFFFF }
  | _ => none

/-- The command a word names once its row fits, operands read from their fields
(30_encoding.md R82 to R90, R93). -/
def readOperands (w : Word) : Option Instr :=
  match (opField w).toNat with
  | 0 => some .nop
  | 1 => some (.connect (protocolField w) (pinField w))
  | 2 => some (.onButton (presentField w) (kindField w) (handleField w) (codeField w))
  | 3 => some (.schedule (presentField w) (queueField w) (modeField w) (handleField w) (immField w))
  | 4 => some (.cancel (queueField w) (immField w))
  | 5 => some .queryDatagram
  | 6 => some (.readState (queueField w) (selectorField w))
  | 7 => some (.cbReturn (queueField w))
  | _ => none

/-- Why a command's operands are out of range, if they are (30_encoding.md R91 (c), (d)). -/
def operandFault : Instr → Option IllegalReason
  | .onButton _ _ _ code => if legalCode code then none else some .reservedCode
  | .readState _ sel => if legalSelector sel then none else some .reservedSelector
  | _ => none

/-- The decoder: total on every 64-bit word (30_encoding.md R91, R95). -/
def decode (w : Word) : Except IllegalReason Instr :=
  match opcodeRow (opField w), readOperands w with
  | some row, some i =>
    if w &&& row.mask = row.mtch then
      match operandFault i with
      | none => .ok i
      | some r => .error r
    else .error .reservedBits
  | _, _ => .error .reservedOpcode

/-- The command word that an instruction of the opcode table with bits `w` lays on the command port;
a command is one 64-bit word (30_encoding.md R94), and bits above `nbits` are 0. -/
def commandWord (nbits w : Nat) : Word := BitVec.ofNat 64 (w % 2 ^ nbits)

/-- The instruction the decoder reads from the table word `w`, `none` where it is ILLEGAL. -/
def decodeTableWord (nbits w : Nat) : Option Instr :=
  match decode (commandWord nbits w) with
  | .ok i => some i
  | .error _ => none

/-- The bit of the field Q (30_encoding.md R80). -/
def queueBit : QueueKind → Bool
  | .prio => false
  | .cbq => true

/-- The bit of the field M (30_encoding.md R80). -/
def modeBit : Mode → Bool
  | .once => false
  | .repeating => true

/-- The bit of the field K (30_encoding.md R80). -/
def kindBit : Transition → Bool
  | .pressed => false
  | .released => true

/-- The bit of the field PR, which is also PROTO's value in STATUS (30_encoding.md R80, R89). -/
def protocolBit : Protocol → Bool
  | .nec => false
  | .keyestudio => true

/-- The single command format: OP, P, Q, M, K, PR, seven reserved zeros, CB, IMM
(30_encoding.md R80). -/
def packCommand (op : BitVec 4) (p q m k pr : Bool) (cb : Handle) (imm : BitVec 32) : Word :=
  op ++ BitVec.ofBool p ++ BitVec.ofBool q ++ BitVec.ofBool m ++ BitVec.ofBool k ++
    BitVec.ofBool pr ++ (0 : BitVec 7) ++ cb ++ imm

/-- The command word of an instruction (30_encoding.md R82 to R90). -/
def encode : Instr → Word
  | .nop => packCommand 0 false false false false false 0 0
  | .connect pr pin => packCommand 1 false false false false (protocolBit pr) 0 (pin.setWidth 32)
  | .onButton present kind cb code =>
    packCommand 2 present false false (kindBit kind) false cb (code.setWidth 32)
  | .schedule present q mode cb delay =>
    packCommand 3 present (queueBit q) (modeBit mode) false false cb delay
  | .cancel q id => packCommand 4 false (queueBit q) false false false 0 id
  | .queryDatagram => packCommand 5 false false false false false 0 0
  | .readState q sel => packCommand 6 false (queueBit q) false false false 0 (sel.setWidth 32)
  | .cbReturn q => packCommand 7 false (queueBit q) false false false 0 0

end Sys2Proof
end

