-- ==== Sys2Proof/Machine/State.lean ====
section
/-! DEFINITION. The state of IRDS as plain data: every element of 10_state.md R20, its input NOW, and
the model's own fields (parameters, agenda, outputs, choices). -/

namespace Sys2Proof.Machine

/-- What a job runs: a host callback, or the block's own repeat-timeout check (10_state.md R37). -/
inductive Callback where
  | user (h : Handle)
  | repeatCheck
deriving DecidableEq, Repr

/-- A job (10_state.md R36). -/
structure Job where
  id : JobId
  cb : Callback
  delay : Int
  remaining : Int
  mode : Mode
deriving DecidableEq, Repr

/-- A button binding (10_state.md R35). -/
structure Binding where
  code : ButtonCode
  present : Bool
  handle : Handle
deriving DecidableEq, Repr

/-- PHASE[q], the loop sequencer (10_state.md R43). -/
inductive Phase where
  | unstarted
  | head
  | run
  | invoke
  | sleep (w : Int)
deriving DecidableEq, Repr

/-- The record of one queue kind (10_state.md R38 to R43). -/
structure Queue where
  /-- CREATED[q] (R38). -/
  created : Bool
  /-- LIVE[q], in insertion order (R39). -/
  live : List Job
  /-- INS[q], the pending-insert buffer (R40). -/
  ins : List Job
  /-- REM[q], the pending-removal buffer (R40). -/
  rem : List JobId
  /-- MINPOLL[q] in ms (R41). -/
  minPoll : Nat
  /-- PREV[q], the clock at the previous iteration (R42). -/
  prev : Nat
  /-- DELTA[q], the elapsed time of the current pass (R42). -/
  delta : Int
  /-- PHASE[q] (R43). -/
  phase : Phase
  /-- K[q], the jobs of the current pass already run (R43). -/
  k : Nat
deriving DecidableEq, Repr

/-- The cause of the capacity fault, FAULT_CAUSE 1 to 4; the codes 5 to 15 are never raised
(60_exceptions.md R235). -/
inductive FaultCause where
  | insOverflow
  | remOverflow
  | liveOverflow
  | bindOverflow
deriving DecidableEq, Repr

/-- Why the model gives a run no meaning (60_exceptions.md R236). It is model-only: the step that
refuses sets REFUSED and changes nothing else. -/
inductive RefuseReason where
  | clockWrap
  | idExhausted
deriving DecidableEq, Repr

/-- The state of IRDS (10_state.md R20), the clock input NOW, and the model's own last four fields. -/
structure State where
  /-- INIT (10_state.md R23). -/
  init : Bool
  /-- CONN (R24). -/
  conn : Bool
  /-- PROTO (R25). -/
  proto : Protocol
  /-- BITS : u6 (R26). -/
  bits : BitVec 6
  /-- HIWORD : u16 (R27). -/
  hiword : BitVec 16
  /-- LOWORD : u16 (R28). -/
  loword : BitVec 16
  /-- ADDR : u16 (R29). -/
  addr : BitVec 16
  /-- CMDF : u16 (R30). -/
  cmdf : BitVec 16
  /-- NEWDG (R31). -/
  newdg : Bool
  /-- ACTIVE's AC_VALID (R32). -/
  acValid : Bool
  /-- ACTIVE's AC_CODE : u8 (R32). -/
  acCode : BitVec 8
  /-- DEADLINE : u(W_TIME), in ms of NOW (R33). -/
  deadline : Nat
  /-- MARK_LATCH : u(W_DUR), in µs (R34). -/
  markLatch : Nat
  /-- PRESSED, in registration order (R35). -/
  pressed : List Binding
  /-- RELEASED, in registration order (R35). -/
  released : List Binding
  /-- The Priority queue's record (R38 to R43). -/
  prio : Queue
  /-- The Callback queue's record (R38 to R43). -/
  cbq : Queue
  /-- FAULT_CAUSE, `none` for 0 (R44). -/
  faultCause : Option FaultCause
  /-- REFUSED, the model-only mark (R45). -/
  refused : Bool
  /-- ISSUED, every id drawn since reset (R46). -/
  issued : List JobId
  /-- NOW : u(W_TIME), an input (R47). -/
  now : Nat
  /-- MODEL FIELD: the parameters of 00_scope.md R9; no step writes them. -/
  params : Params
  /-- MODEL FIELD: the moves the environment has already chosen, next first. -/
  agenda : List Move
  /-- MODEL FIELD: every response and INVOKE sent so far, oldest first. -/
  outputs : List Output
  /-- MODEL FIELD: how many free values the run has used; the next one is applied to it. -/
  choices : Nat
deriving DecidableEq, Repr

/-- No step of IRDS stops the machine with a fault: YIR has no fatal condition (60_exceptions.md R231),
and a capacity fault is state, FAULT_CAUSE, after which steps go on (60_exceptions.md R233, R234).
Nobody raises a `Fault`; the type has no constructor, which is safe (DEDUCED, log entry 9). -/
inductive Fault where
deriving DecidableEq, Repr

/-- The reasons exec may refuse an instruction. -/
inductive Refusal where
  /-- An instruction without a meaning in this model. Every instruction has one, so nobody raises it;
  raising it would be safe. -/
  | notModelled (mnemonic : String)
deriving DecidableEq, Repr

/-- A queue that does not exist yet, at its reset values (10_state.md R49). -/
def Queue.initial (p : Params) : Queue where
  created := false
  live := []
  ins := []
  rem := []
  minPoll := p.pollInitMs
  prev := 0
  delta := 0
  phase := .unstarted
  k := 0

/-- The state at the start of a run (10_state.md R49, 70_reset_and_hazards.md R261), for any
parameters and any value of the input NOW, which the spec leaves free (10_state.md R47). -/
def State.powerUp (p : Params) (now : Nat) : State where
  init := false
  conn := false
  proto := .nec
  bits := 0
  hiword := 0
  loword := 0
  addr := 0
  cmdf := 0
  newdg := false
  acValid := false
  acCode := 0
  deadline := 0
  markLatch := 0
  pressed := []
  released := []
  prio := Queue.initial p
  cbq := Queue.initial p
  faultCause := none
  refused := false
  issued := []
  now := now
  params := p
  agenda := []
  outputs := []
  choices := 0

/-- The machine right after reset: the defaults of 00_scope.md R9, and NOW = 0 (DESIGN CHOICE, log
entry 1; `State.powerUp` gives every other start). -/
def State.reset : State := State.powerUp Config.defaults 0

end Sys2Proof.Machine
end

