-- ==== Sys2Proof/Machine/Flags.lean ====
section
/-! DEFINITION. The flags of 10_state.md R48 and every value READ_STATE and the response port give
(30_encoding.md R89, R92, 60_exceptions.md R235). -/

namespace Sys2Proof.Machine

/-- The record of the queue kind `q`. -/
def State.queue (s : State) : QueueKind → Queue
  | .prio => s.prio
  | .cbq => s.cbq

/-- FAULTED = FAULT_CAUSE ≠ 0 (10_state.md R44). -/
def State.faulted (s : State) : Bool := s.faultCause.isSome

/-- FAULT_CAUSE's 4-bit code (60_exceptions.md R235). -/
def faultCode : Option FaultCause → BitVec 4
  | none => 0
  | some .insOverflow => 1
  | some .remOverflow => 2
  | some .liveOverflow => 3
  | some .bindOverflow => 4

/-- The phase code of READ_STATE selector 11 (30_encoding.md R89). -/
def phaseCode : Phase → BitVec 3
  | .unstarted => 0
  | .head => 1
  | .run => 2
  | .invoke => 3
  | .sleep _ => 4

/-- Selector 2: bit 8 AC_VALID, bits 7:0 AC_CODE (30_encoding.md R89). -/
def activeVal (s : State) : Val := (BitVec.ofBool s.acValid ++ s.acCode).setWidth 32

/-- Selector 7: bit 0 INIT, 1 CONN, 2 PROTO, 3 NEWDG, 4 CREATED[PRIO], 5 CREATED[CBQ], 6 FAULTED
(30_encoding.md R89). -/
def statusVal (s : State) : Val :=
  (BitVec.ofBool s.faulted ++ BitVec.ofBool s.cbq.created ++ BitVec.ofBool s.prio.created ++
    BitVec.ofBool s.newdg ++ BitVec.ofBool (protocolBit s.proto) ++ BitVec.ofBool s.conn ++
    BitVec.ofBool s.init).setWidth 32

/-- Selector 11: bits 2:0 the phase code, bits 31:16 K[q] (30_encoding.md R89; the field holds the
low 16 bits of K: DEDUCED, log entry 8). -/
def phaseVal (Q : Queue) : Val := BitVec.ofNat 16 Q.k ++ (0 : BitVec 13) ++ phaseCode Q.phase

/-- VAL(SEL, Q) of READ_STATE; `none` for the reserved selectors 12 to 15 (30_encoding.md R89). -/
def readValue (q : QueueKind) (sel : BitVec 4) (s : State) : Option Val :=
  match sel.toNat with
  | 0 => some (s.addr.setWidth 32)
  | 1 => some (s.cmdf.setWidth 32)
  | 2 => some (activeVal s)
  | 3 => some (s.bits.setWidth 32)
  | 4 => some (s.hiword.setWidth 32)
  | 5 => some (s.loword.setWidth 32)
  | 6 => some (BitVec.ofNat 32 s.deadline)
  | 7 => some (statusVal s)
  | 8 => some (BitVec.ofNat 32 (s.queue q).minPoll)
  | 9 => some ((faultCode s.faultCause).setWidth 32)
  | 10 => some (BitVec.ofNat 32 (s.queue q).live.length)
  | 11 => some (phaseVal (s.queue q))
  | _ => none

/-- ST's 2-bit code (30_encoding.md R92). -/
def statusCode : Status → BitVec 2
  | .ok => 0
  | .illegal => 2
  | .faulted => 3

/-- The 34-bit response word RSP: ST in bits 33:32, VAL in bits 31:0 (30_encoding.md R92). -/
def responseWord (r : Response) : BitVec 34 := statusCode r.st ++ r.val

end Sys2Proof.Machine
end

