-- ==== Sys2Proof/Machine/Operands.lean ====
section
/-! DEFINITION. How the operand fields of a command and the operands of an event are read
(30_encoding.md R93, 42_decoder_state_machine.md R134). -/

namespace Sys2Proof.Machine

/-- DELAY = sext_32(IMM), an exact integer of ms (30_encoding.md R85, R93). -/
def delayMs (imm : BitVec 32) : Int := imm.toInt

/-- The handle a binding stores: CB, or 0 when the callback is absent (45_host_commands.md R203). -/
def bindingHandle (present : Bool) (cb : Handle) : Handle := if present then cb else 0

/-- A command code c in 0 to 255 as a 9-bit button code (30_encoding.md R87). -/
def buttonCode (c : BitVec 8) : ButtonCode := c.setWidth 9

/-- `newCommand = CMDF[15:8]` (43_button_dispatch_repeat_timeout.md R143, 90_conflicts.md C2). -/
def newCommand (cmdf : BitVec 16) : BitVec 8 := cmdf.extractLsb' 8 8

/-- `(a << 1 | b)[15:0]` (00_scope.md R11). -/
def shiftIn (a : BitVec 16) (b : Bool) : BitVec 16 := a <<< 1 ||| (BitVec.ofBool b).setWidth 16

/-- The largest duration u(W_DUR) holds. -/
def maxDuration (p : Params) : Nat := 2 ^ p.wDur - 1

/-- The largest time u(W_TIME) holds. -/
def maxTime (p : Params) : Nat := 2 ^ p.wTime - 1

/-- `min(MARK_LATCH + t, 2^W_DUR − 1)` (42_decoder_state_machine.md R134). -/
def markPlusSpace (p : Params) (mark t : Nat) : Nat := min (mark + t) (maxDuration p)

/-- The edge that ends the mark: FALL when MARK_LEVEL = High, RISE when Low (30_encoding.md R97). -/
def endsMark : PinLevel → EdgeKind → Bool
  | .high, .fall => true
  | .high, .rise => false
  | .low, .fall => false
  | .low, .rise => true

end Sys2Proof.Machine
end

