-- ==== Sys2Proof/Machine/Ops.lean ====
section
/-! DEFINITION. The named operations of the pseudocode (00_scope.md R12) and the operations several
rules share: responses, the capacity fault and the refusal (60_exceptions.md R233, R236), INVOKE and
the return from it (44_scheduler.md R177, 45_host_commands.md R206), identifiers and the internal
enqueue (44_scheduler.md R160 to R166). -/

namespace Sys2Proof.Machine

/-- How a step's body, or a part of it, ends: with a value; stopped by a capacity fault, its earlier
writes kept (60_exceptions.md R233); or refused (60_exceptions.md R236). -/
inductive Body (α : Type) where
  | done (a : α) (s : State)
  | stopped (s : State)
  | refused (r : RefuseReason)
deriving DecidableEq, Repr

/-- The next part of a body runs only after a part that is done. -/
def Body.andThen {α β : Type} (b : Body α) (f : α → State → Body β) : Body β :=
  match b with
  | .done a s => f a s
  | .stopped s => .stopped s
  | .refused r => .refused r

/-- Writes the record of the queue kind `q`. -/
def State.setQueue (s : State) (q : QueueKind) (Q : Queue) : State :=
  match q with
  | .prio => { s with prio := Q }
  | .cbq => { s with cbq := Q }

/-- `Emit(e)`: sends an output event to the host (00_scope.md R12). -/
def State.emit (s : State) (e : Output) : State := { s with outputs := s.outputs ++ [e] }

/-- `Respond(st, val)` (00_scope.md R12, 30_encoding.md R92). -/
def State.respond (s : State) (st : Status) (val : Val) : State :=
  s.emit (.response { st := st, val := val })

/-- `raise Fault(c)`: FAULT_CAUSE keeps its first cause, and the step ends here with its earlier
writes (60_exceptions.md R233). -/
def raiseFault {α : Type} (c : FaultCause) (s : State) : Body α :=
  .stopped (match s.faultCause with
    | none => { s with faultCause := some c }
    | some _ => s)

/-- `refuse(reason)`: only REFUSED is written, over the state before the step (60_exceptions.md
R236). A run goes on from there (DESIGN CHOICE, log entry 16). -/
def State.refuse (s : State) : State := { s with refused := true }

/-- The end of an agent's step that began in `s0`. -/
def commit (s0 : State) : Body Unit → State
  | .done _ s => s
  | .stopped s => s
  | .refused _ => s0.refuse

/-- The end of a host command that began in `s0`: OK with its value; FAULTED when a capacity fault
was raised (60_exceptions.md R233); when the step refuses, a free response (DESIGN CHOICE, log entry 3). -/
def answer (s0 : State) : Body Val → State
  | .done v s => s.respond .ok v
  | .stopped s => s.respond .faulted 0
  | .refused _ =>
    ({ s0.refuse with choices := s0.choices + 1 }).emit
      (.response (Config.freeResponse s0.choices))

/-- A host command other than READ_STATE: FAULTED with no effect while FAULT_CAUSE ≠ 0, else its own
rule (45_host_commands.md R200, 60_exceptions.md R234). -/
def command (body : State → Body Val) (s : State) : State :=
  if s.faulted then s.respond .faulted 0 else answer s (body s)

/-- The response to an ILLEGAL command: ILLEGAL, or FAULTED, which takes precedence; no other change
(60_exceptions.md R232, R240). -/
def illegalCommand (s : State) : State :=
  if s.faulted then s.respond .faulted 0 else s.respond .illegal 0

/-- `Append(INS[q], j)` (00_scope.md R12, 60_exceptions.md R235). -/
def appendIns (q : QueueKind) (j : Job) (s : State) : Body Unit :=
  if s.params.insCap ≤ (s.queue q).ins.length then raiseFault .insOverflow s
  else .done () (s.setQueue q { s.queue q with ins := (s.queue q).ins ++ [j] })

/-- `Append(REM[q], id)` (00_scope.md R12, 60_exceptions.md R235). -/
def appendRem (q : QueueKind) (id : JobId) (s : State) : Body Unit :=
  if s.params.remCap ≤ (s.queue q).rem.length then raiseFault .remOverflow s
  else .done () (s.setQueue q { s.queue q with rem := (s.queue q).rem ++ [id] })

/-- The binding list of a transition kind (10_state.md R35). -/
def State.bindings (s : State) : Transition → List Binding
  | .pressed => s.pressed
  | .released => s.released

/-- `Append(PRESSED, b)` or `Append(RELEASED, b)` (45_host_commands.md R203, 60_exceptions.md
R235). -/
def appendBinding (kind : Transition) (b : Binding) (s : State) : Body Unit :=
  if s.params.bindCap ≤ (s.bindings kind).length then raiseFault .bindOverflow s
  else
    match kind with
    | .pressed => .done () { s with pressed := s.pressed ++ [b] }
    | .released => .done () { s with released := s.released ++ [b] }

/-- A queue's record at and after its first use: creation starts its loop in Unstarted
(44_scheduler.md R160). -/
def firstUse (Q : Queue) : Queue :=
  if Q.created then Q else { Q with created := true, phase := .unstarted, k := 0 }

/-- `EnsureQueue(q)` (44_scheduler.md R160). -/
def ensureQueue (q : QueueKind) (s : State) : State := s.setQueue q (firstUse (s.queue q))

/-- `EnsureInit()` (45_host_commands.md R207). -/
def ensureInit (s : State) : State := { s with init := true }

/-- Whether no fresh identifier is left: there are 2^W_ID − 1 ids other than 0, and ISSUED repeats
none (44_scheduler.md R164; DEDUCED, log entry 15). -/
def idsExhausted (s : State) : Bool := decide (2 ^ s.params.wId ≤ s.issued.length + 1)

/-- The first fresh identifier at or after the candidate `c`, in the cyclic order of u(W_ID): not 0
and not in ISSUED. `fuel` candidates are tried. -/
def freshFrom (wId : Nat) (issued : List JobId) : Nat → Nat → JobId
  | 0, c => BitVec.ofNat 32 c
  | fuel + 1, c =>
    if BitVec.ofNat 32 c ≠ 0 ∧ BitVec.ofNat 32 c ∉ issued then BitVec.ofNat 32 c
    else freshFrom wId issued fuel ((c + 1) % 2 ^ wId)

/-- The identifier the next DrawId returns: the free proposal, made fresh (44_scheduler.md R164;
DESIGN CHOICE, log entry 2). -/
def drawnId (s : State) : JobId :=
  freshFrom s.params.wId s.issued (s.issued.length + 1)
    ((Config.freeId s.choices).toNat % 2 ^ s.params.wId)

/-- `DrawId()`: a fresh identifier, added to ISSUED, or a refusal when none is left
(44_scheduler.md R164). -/
def drawId (s : State) : Body JobId :=
  if idsExhausted s then .refused .idExhausted
  else .done (drawnId s)
    { s with issued := s.issued ++ [drawnId s], choices := s.choices + 1 }

/-- MINPOLL[q] after an accepted job: a Repeat job with 0 < delay < MINPOLL[q] shrinks it
(44_scheduler.md R163). -/
def shrunkPoll (mode : Mode) (delay : Int) (minPoll : Nat) : Nat :=
  if mode = .repeating ∧ 0 < delay ∧ delay < minPoll then delay.toNat else minPoll

/-- The shrink of MINPOLL[q] (44_scheduler.md R163). -/
def shrinkPoll (q : QueueKind) (mode : Mode) (delay : Int) (s : State) : State :=
  s.setQueue q { s.queue q with minPoll := shrunkPoll mode delay (s.queue q).minPoll }

/-- A job as it is created: `remaining` starts at `delay` (44_scheduler.md R166). -/
def newJob (id : JobId) (cb : Callback) (mode : Mode) (delay : Int) : Job where
  id := id
  cb := cb
  delay := delay
  remaining := delay
  mode := mode

/-- `InternalSchedule(present, cb, q, mode, delay)`; its value is the new id, 0 for a rejection
(44_scheduler.md R166). -/
def internalSchedule (present : Bool) (cb : Callback) (q : QueueKind) (mode : Mode) (delay : Int)
    (s : State) : Body JobId :=
  if present = false ∨ delay < 0 then .done 0 s
  else
    (drawId (ensureQueue q s)).andThen fun id s1 =>
      (appendIns q (newJob id cb mode delay) s1).andThen fun _ s2 =>
        .done id (shrinkPoll q mode delay s2)

/-- `FirstMatch(L, p)` for a button lookup: the first binding, in registration order, of code `c` or
of the wildcard (43_button_dispatch_repeat_timeout.md R148). -/
def lookupBinding (bs : List Binding) (c : BitVec 8) : Option Binding :=
  bs.find? fun b => b.code = buttonCode c ∨ b.code = Config.wildcard

/-- `EnqueueCallback(b)`: a Once job of delay 0 on CBQ, its id discarded
(43_button_dispatch_repeat_timeout.md R149). -/
def enqueueCallback (b : Binding) (s : State) : Body Unit :=
  (internalSchedule b.present (.user b.handle) .cbq .once 0 s).andThen fun _ s1 => .done () s1

/-- `b <- Lookup(L, c); if b ≠ absent then EnqueueCallback(b)`
(43_button_dispatch_repeat_timeout.md R144, R145, R150). -/
def notifyBinding (bs : List Binding) (c : BitVec 8) (s : State) : Body Unit :=
  match lookupBinding bs c with
  | none => .done () s
  | some b => enqueueCallback b s

/-- Handing control to a host callback: INVOKE(q, h) is emitted and the loop of q waits in Invoke
(44_scheduler.md R177, 60_exceptions.md R238). -/
def invokeCallback (q : QueueKind) (h : Handle) (s : State) : State :=
  (s.setQueue q { s.queue q with phase := .invoke }).emit (.invoke q h)

/-- The return from a host callback: the loop of q goes on to its next job (45_host_commands.md R206,
60_exceptions.md R242). -/
def returnFromCallback (q : QueueKind) (s : State) : State :=
  s.setQueue q { s.queue q with k := (s.queue q).k + 1, phase := .run }

/-- `K[q] <- K[q] + 1` (44_scheduler.md R172). -/
def advanceCursor (q : QueueKind) (s : State) : State :=
  s.setQueue q { s.queue q with k := (s.queue q).k + 1 }

end Sys2Proof.Machine
end

