-- ==== Sys2Proof/Machine/HostCommands.lean ====
section
/-! DEFINITION. The meanings of the host commands of 45_host_commands.md: NOP, CONNECT, ON_BUTTON,
QUERY_DATAGRAM, READ_STATE and CB_RETURN. -/

namespace Sys2Proof.Machine

/-- NOP (45_host_commands.md R201). -/
def execNop (s : State) : Host.Outcome State Fault Refusal :=
  .next (command (fun s => .done 0 s) s)

/-- CONNECT's body: only the first connect fixes the protocol, starts pulse detection and the
repeat-check job (45_host_commands.md R202). -/
def connectBody (pr : Protocol) (s : State) : Body Val :=
  if s.conn then .done 0 (ensureInit s)
  else
    (internalSchedule true .repeatCheck .prio .repeating Config.repeatTimeoutMs
      { ensureInit s with proto := pr, conn := true, markLatch := 0 }).andThen
      fun _ s1 => .done 0 s1

/-- CONNECT (45_host_commands.md R202). PIN goes to the excluded pin layer and has no effect here
(30_encoding.md R83; DEDUCED, log entry 12). -/
def execConnect (pr : Protocol) (_pin : BitVec 8) (s : State) : Host.Outcome State Fault Refusal :=
  .next (command (connectBody pr) s)

/-- ON_BUTTON's body (45_host_commands.md R203). -/
def onButtonBody (present : Bool) (kind : Transition) (cb : Handle) (code : ButtonCode)
    (s : State) : Body Val :=
  (appendBinding kind { code := code, present := present, handle := bindingHandle present cb }
    (ensureInit s)).andThen fun _ s1 => .done 0 s1

/-- ON_BUTTON; a reserved code is ILLEGAL (45_host_commands.md R203, 30_encoding.md R91 (c); no word
decodes to one, DEDUCED, log entry 10). -/
def execOnButton (present : Bool) (kind : Transition) (cb : Handle) (code : ButtonCode)
    (s : State) : Host.Outcome State Fault Refusal :=
  .next (if legalCode code then command (onButtonBody present kind cb code) s else illegalCommand s)

/-- QUERY_DATAGRAM: NEWDG is read and cleared in one step (45_host_commands.md R204). -/
def execQueryDatagram (s : State) : Host.Outcome State Fault Refusal :=
  .next (command
    (fun s => .done ((BitVec.ofBool s.newdg).setWidth 32) { s with newdg := false }) s)

/-- READ_STATE: answered even while faulted; a reserved selector is ILLEGAL (45_host_commands.md
R205; no word decodes to one, DEDUCED, log entry 10). -/
def execReadState (q : QueueKind) (sel : BitVec 4) (s : State) :
    Host.Outcome State Fault Refusal :=
  match readValue q sel s with
  | some v => .next (s.respond .ok v)
  | none => .next (illegalCommand s)

/-- CB_RETURN: ends the outstanding callback of q, and is ILLEGAL when there is none
(45_host_commands.md R206). -/
def execCbReturn (q : QueueKind) (s : State) : Host.Outcome State Fault Refusal :=
  .next (if (s.queue q).phase = .invoke then command (fun s => .done 0 (returnFromCallback q s)) s
    else illegalCommand s)

end Sys2Proof.Machine
end

