-- ==== Sys2Proof/Machine/SchedulerCommands.lean ====
section
/-! DEFINITION. The meanings of SCHEDULE and CANCEL (44_scheduler.md R161 to R166). -/

namespace Sys2Proof.Machine

/-- SCHEDULE: a request without a callback or with a negative delay is answered OK, 0 and has no other
effect; an accepted one answers the new id (44_scheduler.md R161, R162). -/
def execSchedule (present : Bool) (q : QueueKind) (mode : Mode) (cb : Handle) (delay : BitVec 32)
    (s : State) : Host.Outcome State Fault Refusal :=
  .next (command (internalSchedule present (.user cb) q mode (delayMs delay)) s)

/-- CANCEL: the id is appended to REM[q] whatever it names (44_scheduler.md R165). -/
def execCancel (q : QueueKind) (id : JobId) (s : State) : Host.Outcome State Fault Refusal :=
  .next (command (fun s => (appendRem q id (ensureQueue q s)).andThen fun _ s1 => .done 0 s1) s)

end Sys2Proof.Machine
end

