-- ==== Sys2Proof/Machine/Dispatch.lean ====
section
/-! DEFINITION. exec: one arm per constructor of Instr, each one call of its meaning. -/

namespace Sys2Proof.Machine

/-- The meaning of a host command (45_host_commands.md R200). -/
def exec (i : Instr) (s : State) : Host.Outcome State Fault Refusal :=
  match i with
  | .nop => Sys2Proof.Machine.execNop s
  | .connect pr pin => Sys2Proof.Machine.execConnect pr pin s
  | .onButton present kind cb code => Sys2Proof.Machine.execOnButton present kind cb code s
  | .schedule present q mode cb delay => Sys2Proof.Machine.execSchedule present q mode cb delay s
  | .cancel q id => Sys2Proof.Machine.execCancel q id s
  | .queryDatagram => Sys2Proof.Machine.execQueryDatagram s
  | .readState q sel => Sys2Proof.Machine.execReadState q sel s
  | .cbReturn q => Sys2Proof.Machine.execCbReturn q s

end Sys2Proof.Machine
end

