-- ==== Sys2Proof/Machine/Environment.lean ====
section
/-! DEFINITION. The clock, the reset source, and which agent moves next (20_memory.md R66, R68,
30_encoding.md R98, 70_reset_and_hazards.md R260). -/

namespace Sys2Proof.Machine

/-- `TICK(n)`: the clock advances, faulted or not; past the clock's range it refuses
(30_encoding.md R98, 60_exceptions.md R234). -/
def tick (n : Nat) (s : State) : State :=
  if s.now + n ≤ maxTime s.params then { s with now := s.now + n } else s.refuse

/-- `RESET`: every element to its reset value but NOW, which is an input, and REFUSED, which is a mark
on the run (70_reset_and_hazards.md R260). The model's own fields are no state of IRDS and stay
(DESIGN CHOICE, log entry 6). -/
def resetBlock (s : State) : State :=
  { State.powerUp s.params s.now with
    refused := s.refused, agenda := s.agenda, outputs := s.outputs, choices := s.choices }

/-- The next move and the state it starts in: the agenda's first, or a free move when the agenda lists
none (20_memory.md R68; DESIGN CHOICE, log entry 2). -/
def takeMove (s : State) : Move × State :=
  match s.agenda with
  | m :: ms => (m, { s with agenda := ms })
  | [] => (Config.freeMove s.choices, { s with choices := s.choices + 1 })

/-- Puts a move at the front of the agenda: it is the next one taken. -/
def State.withMove (s : State) (m : Move) : State := { s with agenda := m :: s.agenda }

end Sys2Proof.Machine
end

