-- ==== Sys2Proof/Machine/PulseDecoder.lean ====
section
/-! DEFINITION. The pulse path up to its result: PulseClassifier (40_pulse_classifier.md) and
DatagramAssembler (41_datagram_assembler.md). -/

namespace Sys2Proof.Machine

/-- The class of a pulse duration (40_pulse_classifier.md R110). -/
inductive PulseClass where
  | bit (b : Bool)
  | repeatMarker
  | startMarker
  | noise
deriving DecidableEq, Repr

/-- The result of a pulse step (42_decoder_state_machine.md R132). -/
inductive PulseResult where
  | datagram
  | repeatCode
  | incomplete
deriving DecidableEq, Repr

/-- `Classify(d)`: half-open bands, boundary values in the upper band (40_pulse_classifier.md
R110). -/
def classify (d : Nat) : PulseClass :=
  if d < Config.tBit1 then .bit false
  else if d < Config.tRepeat then .bit true
  else if d < Config.tStart then .repeatMarker
  else if d < Config.tNoise then .startMarker
  else .noise

/-- Step 1: `BITS <- BITS + 1` (41_datagram_assembler.md R120). -/
def countBit (s : State) : State := { s with bits := s.bits + 1 }

/-- Steps 2 to 4 on the counted bit: the shift into the accumulator of the half, and the KEYESTUDIO
snap of a 1 among bits 1 to 8 (41_datagram_assembler.md R121 to R124). -/
def shiftBit (b : Bool) (s : State) : State :=
  if s.bits.toNat ≤ 8 then
    if s.proto = .keyestudio ∧ b = true then { s with bits := 9, hiword := 0x0001 }
    else { s with hiword := shiftIn s.hiword b }
  else if s.bits.toNat ≤ 16 then { s with hiword := shiftIn s.hiword b }
  else { s with loword := shiftIn s.loword b }

/-- Step 5: the freeze on the 32nd bit, else Incomplete (41_datagram_assembler.md R125, R126). -/
def freezeDatagram (s : State) : PulseResult × State :=
  if s.bits.toNat = 32 then (.datagram, { s with addr := s.hiword, cmdf := s.loword, bits := 0 })
  else (.incomplete, s)

/-- `AppendBit(b)` (41_datagram_assembler.md R120 to R126). -/
def appendBit (b : Bool) (s : State) : PulseResult × State :=
  freezeDatagram (shiftBit b (countBit s))

/-- The result of a classified pulse: AppendBit for a bit, else the counter reset
(40_pulse_classifier.md R111, R112). -/
def assemble (c : PulseClass) (s : State) : PulseResult × State :=
  match c with
  | .bit b => appendBit b s
  | .repeatMarker => (.repeatCode, { s with bits := 0 })
  | .startMarker => (.incomplete, { s with bits := 0 })
  | .noise => (.incomplete, { s with bits := 0 })

end Sys2Proof.Machine
end

