-- ==== Sys2Proof/Machine/ButtonDispatch.lean ====
section
/-! DEFINITION. ButtonEventDispatcher, the repeat-timeout tracker
(43_button_dispatch_repeat_timeout.md) and the whole PULSE and EDGE steps of agent P
(42_decoder_state_machine.md). -/

namespace Sys2Proof.Machine

/-- `DEADLINE <- NOW + 120`, refused when it would exceed the clock
(43_button_dispatch_repeat_timeout.md R141). -/
def refreshDeadline (s : State) : Body Unit :=
  if maxTime s.params < s.now + Config.repeatTimeoutMs then .refused .clockWrap
  else .done () { s with deadline := s.now + Config.repeatTimeoutMs }

/-- The release of the old command on a change, if one is active
(43_button_dispatch_repeat_timeout.md R144). -/
def releaseActive (s : State) : Body Unit :=
  if s.acValid then notifyBinding s.released s.acCode s else .done () s

/-- The press and release events of a Datagram of command `new`: none when it is already active, else
release, press and the update of ACTIVE, in that order (43_button_dispatch_repeat_timeout.md R144 to
R147, R153). -/
def changeCommand (new : BitVec 8) (s : State) : Body Unit :=
  if s.acValid = true ∧ s.acCode = new then .done () s
  else
    (releaseActive s).andThen fun _ s1 =>
      (notifyBinding s1.pressed new s1).andThen fun _ s2 =>
        .done () { s2 with acValid := true, acCode := new }

/-- `Dispatch(result)`: an Incomplete result is never dispatched, a Repeat only refreshes DEADLINE
(43_button_dispatch_repeat_timeout.md R140 to R147, R152). -/
def dispatch (r : PulseResult) (s : State) : Body Unit :=
  match r with
  | .incomplete => .done () s
  | .repeatCode => refreshDeadline s
  | .datagram =>
    (refreshDeadline s).andThen fun _ s1 =>
      changeCommand (newCommand s1.cmdf) { s1 with newdg := true }

/-- `RepeatCheck()`: the timeout release, strictly after DEADLINE
(43_button_dispatch_repeat_timeout.md R150). -/
def repeatCheck (s : State) : Body Unit :=
  if s.acValid = true ∧ s.deadline < s.now then
    (notifyBinding s.released s.acCode s).andThen fun _ s1 =>
      .done () { s1 with acValid := false, acCode := 0, bits := 0 }
  else .done () s

/-- The body of P.Pulse(d): classify, assemble, dispatch (42_decoder_state_machine.md R130). -/
def pulseBody (d : Nat) (s : State) : Body Unit :=
  dispatch (assemble (classify d) s).1 (assemble (classify d) s).2

/-- Whether the pulse path takes events: CONN = 1 and no fault (42_decoder_state_machine.md R131). -/
def State.listening (s : State) : Bool := s.conn && !s.faulted

/-- The PULSE step; the event is consumed without effect when the path is not enabled
(42_decoder_state_machine.md R130, R131). -/
def pulse (d : Nat) (s : State) : State :=
  if s.listening then commit s (pulseBody d s) else s

/-- The EDGE step: the mark-ending edge latches the mark, the space-ending edge pulses with the sum
(42_decoder_state_machine.md R131, R133, R134). -/
def edge (e : EdgeKind) (t : Nat) (s : State) : State :=
  if s.listening then
    if endsMark s.params.markLevel e then { s with markLatch := t }
    else commit s (pulseBody (markPlusSpace s.params s.markLatch t) s)
  else s

end Sys2Proof.Machine
end

