-- ==== Sys2Proof/Machine/PollingLoop.lean ====
section
/-! DEFINITION. The polling loops LP and LC (44_scheduler.md R167 to R181): START, HEAD, RUNJOB and
END, of which at most one is enabled at a time. -/

namespace Sys2Proof.Machine

/-- What `JobRun` returns: the job with its countdown, and whether it fired and is complete. -/
structure JobRun where
  job : Job
  fired : Bool
  complete : Bool
deriving DecidableEq, Repr

/-- `JobRun(j, delta)`: no-op, counting down, firing a Once job, firing a Repeat job
(44_scheduler.md R173 to R176). -/
def jobRun (j : Job) (delta : Int) : JobRun :=
  if delta ≤ 0 then { job := j, fired := false, complete := false }
  else if 0 < j.remaining - delta then
    { job := { j with remaining := j.remaining - delta }, fired := false, complete := false }
  else
    match j.mode with
    | .once => { job := { j with remaining := j.remaining - delta }, fired := true, complete := true }
    | .repeating => { job := { j with remaining := j.delay }, fired := true, complete := false }

/-- The index of the job at cursor k of n: oldest-first on CBQ, newest-first on PRIO
(44_scheduler.md R171). -/
def jobIndex (q : QueueKind) (n k : Nat) : Nat :=
  match q with
  | .cbq => k
  | .prio => n - 1 - k

/-- START: `PREV[q] <- NOW ; PHASE[q] <- Head` (44_scheduler.md R167). -/
def loopStart (q : QueueKind) (s : State) : State :=
  s.setQueue q { s.queue q with prev := s.now, phase := .head }

/-- HEAD's first part: DELTA, PREV, and the drained INS[q] and REM[q] (44_scheduler.md R168, R169). -/
def drainBuffers (q : QueueKind) (s : State) : State :=
  s.setQueue q
    { s.queue q with
      delta := (s.now : Int) - (s.queue q).prev, prev := s.now, ins := [], rem := [] }

/-- The live list after both drains: the inserts at the tail, then every removed id dropped
(44_scheduler.md R168, R169). -/
def drainedLive (Q : Queue) : List Job := (Q.live ++ Q.ins).filter fun j => j.id ∉ Q.rem

/-- HEAD (44_scheduler.md R168, R169). -/
def loopHead (q : QueueKind) (s : State) : Body Unit :=
  if s.params.jobCap < (drainedLive (s.queue q)).length then
    raiseFault .liveOverflow (drainBuffers q s)
  else
    .done () ((drainBuffers q s).setQueue q
      { (drainBuffers q s).queue q with
        live := drainedLive (s.queue q), k := 0, phase := .run })

/-- RUNJOB's callback part: INVOKE for a host callback; the body of RepeatCheck within the step; else
only the cursor (44_scheduler.md R172, R177). -/
def fireCallback (q : QueueKind) (fired : Bool) (cb : Callback) (s : State) : Body Unit :=
  if fired then
    match cb with
    | .user h => .done () (invokeCallback q h s)
    | .repeatCheck => (repeatCheck s).andThen fun _ s1 => .done () (advanceCursor q s1)
  else .done () (advanceCursor q s)

/-- RUNJOB on the job `j` at index `i`: the countdown in place, the id of a completed job into REM[q],
then the callback (44_scheduler.md R172, R177, R178). -/
def runJobAt (q : QueueKind) (i : Nat) (j : Job) (s : State) : Body Unit :=
  let r := jobRun j (s.queue q).delta
  let s1 := s.setQueue q { s.queue q with live := (s.queue q).live.set i r.job }
  (if r.complete then appendRem q j.id s1 else .done () s1).andThen fun _ s2 =>
    fireCallback q r.fired j.cb s2

/-- RUNJOB (44_scheduler.md R172). -/
def loopRunJob (q : QueueKind) (s : State) : Body Unit :=
  let i := jobIndex q (s.queue q).live.length (s.queue q).k
  match (s.queue q).live[i]? with
  | some j => runJobAt q i j s
  | none => .done () s

/-- END: `PHASE[q] <- Sleep(NOW + MINPOLL[q])` (44_scheduler.md R179). -/
def loopEnd (q : QueueKind) (s : State) : State :=
  s.setQueue q { s.queue q with phase := .sleep ((s.now : Int) + (s.queue q).minPoll) }

/-- The step a loop has by its sequencer: START, HEAD (also from a sleep that is over), RUNJOB, END;
none in Invoke, in a sleep that is not over, or past the live list (44_scheduler.md R167, R168, R172,
R177, R179, R180). -/
def loopBody (q : QueueKind) (s : State) : Body Unit :=
  match (s.queue q).phase with
  | .unstarted => .done () (loopStart q s)
  | .head => loopHead q s
  | .sleep w => if w ≤ s.now then loopHead q s else .done () s
  | .run =>
    if (s.queue q).k < (s.queue q).live.length then loopRunJob q s
    else if (s.queue q).k = (s.queue q).live.length then .done () (loopEnd q s)
    else .done () s
  | .invoke => .done () s

/-- The turn of the loop of `q`: every loop step also needs CREATED[q] = 1 and no fault
(44_scheduler.md, opening paragraph; 60_exceptions.md R234). A loop with no enabled step does
nothing (DESIGN CHOICE, log entry 5). -/
def loopStep (q : QueueKind) (s : State) : State :=
  if (s.queue q).created && !s.faulted then commit s (loopBody q s) else s

end Sys2Proof.Machine
end

