-- ==== Sys2Proof/Machine/Step.lean ====
section
/-! DEFINITION. One step of the machine: the next move is taken, and its agent makes its atomic step
(20_memory.md R67, R68). -/

namespace Sys2Proof.Machine

/-- The command step of the host: the decoded command's meaning, or the answer to an ILLEGAL word
(45_host_commands.md R200). -/
def runCommand (cmd : Word) (s : State) : Host.Outcome State Fault Refusal :=
  match decode cmd with
  | .ok i => exec i s
  | .error _ => .next (illegalCommand s)

/-- The atomic step of the agent that moves; a move the ports cannot carry is no event and changes
nothing (DESIGN CHOICE, log entry 5). -/
def perform (m : Move) (s : State) : Host.Outcome State Fault Refusal :=
  if m.legal s.params then
    match m with
    | .command cmd => runCommand cmd s
    | .pulse d => .next (pulse d s)
    | .edge e t => .next (edge e t s)
    | .tick n => .next (tick n s)
    | .reset => .next (resetBlock s)
    | .loop q => .next (loopStep q s)
  else .next s

/-- One step of IRDS and its environment (20_memory.md R68). -/
def step (s : State) : Host.Outcome State Fault Refusal :=
  perform (takeMove s).1 (takeMove s).2

/-- `s` with the command of the table word `w` next on the command port (DESIGN CHOICE, log entry 4). -/
def State.withFetchWord (s : State) (nbits w : Nat) : State :=
  s.withMove (.command (commandWord nbits w))

end Sys2Proof.Machine
end

