-- ==== Sys2Proof/Safety.lean ====
section
/-! DEFINITION. What counts as a legal state and a fair run of IRDS: the ranges and limits of
10_state.md, the identifier discipline of 44_scheduler.md R164, the state of a pass
(44_scheduler.md R175), runs (20_memory.md R68) and weak fairness (70_reset_and_hazards.md R273). -/

namespace Sys2Proof.Machine

/-- The limits of one queue's record (10_state.md R38 to R43, 44_scheduler.md R183). -/
structure QueueBounds (p : Params) (now : Nat) (Q : Queue) : Prop where
  uncreated : Q.created = false → Q = Queue.initial p
  live_le : Q.live.length ≤ p.jobCap
  ins_le : Q.ins.length ≤ p.insCap
  rem_le : Q.rem.length ≤ p.remCap
  minPoll_pos : 1 ≤ Q.minPoll
  minPoll_le : Q.minPoll ≤ p.pollInitMs
  prev_le : Q.prev ≤ now
  delta_nonneg : 0 ≤ Q.delta
  delta_le : Q.delta ≤ now
  k_le : Q.k ≤ Q.live.length
  invoke_lt : Q.phase = .invoke → Q.k < Q.live.length
  live_jobs : ∀ j ∈ Q.live, 0 ≤ j.delay ∧ j.delay < 2 ^ 31 ∧ j.remaining ≤ j.delay
  ins_jobs : ∀ j ∈ Q.ins, 0 ≤ j.delay ∧ j.delay < 2 ^ 31 ∧ j.remaining = j.delay

/-- The limits of one binding list (10_state.md R35). -/
structure BindingBounds (p : Params) (bs : List Binding) : Prop where
  length_le : bs.length ≤ p.bindCap
  codes : ∀ b ∈ bs, legalCode b.code = true
  absent : ∀ b ∈ bs, b.present = false → b.handle = 0

/-- Whether a job is the repeat-check job (10_state.md R37). -/
def isRepeatCheck (j : Job) : Bool := decide (j.cb = .repeatCheck)

/-- The repeat-check job (10_state.md R37, 45_host_commands.md R202): none before CONNECT, at most one
after it, on PRIO only, always of mode Repeat and delay 120. -/
structure RepeatCheckBounds (s : State) : Prop where
  unconnected : s.conn = false → (s.prio.live ++ s.prio.ins).countP isRepeatCheck = 0
  at_most_one : (s.prio.live ++ s.prio.ins).countP isRepeatCheck ≤ 1
  none_on_cbq : ∀ j ∈ s.cbq.live ++ s.cbq.ins, isRepeatCheck j = false
  shape : ∀ j ∈ s.prio.live ++ s.prio.ins,
    isRepeatCheck j = true → j.mode = .repeating ∧ j.delay = Config.repeatTimeoutMs

/-- The ranges and limits of the whole state (10_state.md R23 to R47). -/
structure Bounds (s : State) : Prop where
  params : s.params.Legal
  now_lt : s.now < 2 ^ s.params.wTime
  deadline_lt : s.deadline < 2 ^ s.params.wTime
  markLatch_lt : s.markLatch < 2 ^ s.params.wDur
  bits_le : s.bits.toNat ≤ 31
  active_none : s.acValid = false → s.acCode = 0
  conn_init : s.conn = true → s.init = true
  pressed : BindingBounds s.params s.pressed
  released : BindingBounds s.params s.released
  prio : QueueBounds s.params s.now s.prio
  cbq : QueueBounds s.params s.now s.cbq
  repeatChecks : RepeatCheckBounds s

/-- The ids of every job in the block, live or waiting to be live. -/
def jobIds (s : State) : List JobId :=
  (s.prio.live ++ s.prio.ins ++ (s.cbq.live ++ s.cbq.ins)).map Job.id

/-- The identifier discipline: ISSUED repeats no id, every id is a non-zero u(W_ID), and an id names at
most one job in the whole block (44_scheduler.md R164). -/
structure Ids (s : State) : Prop where
  issued_nodup : s.issued.Nodup
  issued_legal : ∀ x ∈ s.issued, x ≠ 0 ∧ x.toNat < 2 ^ s.params.wId
  jobs_nodup : (jobIds s).Nodup
  jobs_issued : ∀ x ∈ jobIds s, x ∈ s.issued

/-- The first position of the pass that has not run: the cursor, or past it while its callback runs;
the end of the list when no pass is under way (10_state.md R43). -/
def nextPosition (Q : Queue) : Nat :=
  match Q.phase with
  | .run => Q.k
  | .invoke => Q.k + 1
  | _ => Q.live.length

/-- The countdowns of one queue's live jobs in an unfaulted block: a job that this pass has not run yet
is not overdue; an overdue job is a Once job whose id waits in REM[q]; and so does the id of every Once
job that the pass has run, with time passed, down to 0 or below, so that the next HEAD drops it before
it could fire again (44_scheduler.md R174, R175, R178). -/
structure PassState (q : QueueKind) (Q : Queue) : Prop where
  pending : ∀ p, nextPosition Q ≤ p → p < Q.live.length →
    ∀ j ∈ Q.live[jobIndex q Q.live.length p]?, 0 ≤ j.remaining
  overdue : ∀ j ∈ Q.live, j.remaining < 0 → j.mode = .once ∧ j.id ∈ Q.rem
  fired : 0 < Q.delta → ∀ p, p < nextPosition Q → p < Q.live.length →
    ∀ j ∈ Q.live[jobIndex q Q.live.length p]?,
      j.mode = .once → j.remaining ≤ 0 → j.id ∈ Q.rem

/-- The countdown invariant: `PassState` of both queues while the block is not faulted, and the lower
bound of `remaining` always (10_state.md R42). -/
structure Countdowns (s : State) : Prop where
  prio : s.faulted = false → PassState .prio s.prio
  cbq : s.faulted = false → PassState .cbq s.cbq
  remaining_ge : ∀ j ∈ s.prio.live ++ s.cbq.live, -((2 : Int) ^ s.params.wTime - 1) ≤ j.remaining

/-- A run: each state is a step's next state (20_memory.md R68). -/
def IsRun (σ : Nat → State) : Prop := ∀ n, step (σ n) = .next (σ (n + 1))

/-- Whether the loop of `q` has an enabled step (44_scheduler.md R167, R168, R172, R179, R180). -/
def loopEnabled (q : QueueKind) (s : State) : Bool :=
  (s.queue q).created && !s.faulted &&
    match (s.queue q).phase with
    | .unstarted => true
    | .head => true
    | .sleep w => decide (w ≤ s.now)
    | .run => decide ((s.queue q).k ≤ (s.queue q).live.length)
    | .invoke => false

/-- Weak fairness of LP and LC: a loop whose step stays enabled from some point on takes a step after
that point. The pulse path takes its events when they are delivered, and nothing is assumed of H, T
and R (70_reset_and_hazards.md R273). The step does not enforce it (DESIGN CHOICE, log entry 13). -/
def WeaklyFair (σ : Nat → State) : Prop :=
  ∀ q n, (∀ m, n ≤ m → loopEnabled q (σ m) = true) → ∃ m, n ≤ m ∧ (takeMove (σ m)).1 = .loop q

/-- The block as its own rules see it: everything but NOW, REFUSED and the model's own fields. -/
def sameBlock (s t : State) : Prop :=
  t = { s with now := t.now, refused := t.refused, params := t.params, agenda := t.agenda,
               outputs := t.outputs, choices := t.choices }

end Sys2Proof.Machine
end

