-- ==== Sys2Proof/Certificates/Slice0/Obligations.lean ====
section
/-! DEFINITION. The statements for the provers, from the numbered rules of spec/. A statement gives a
next state as `s with` the fields written, so it is also the frame: every field it does not name is
unchanged. IRDS has no addressable memory (20_memory.md R60), so no statement has a memory clause. -/

open Sys2Proof Sys2Proof.Machine

namespace Sys2Proof.Machine

/-- The outputs of `s` after one response. -/
def answered (s : State) (st : Status) (v : Val) : List Output :=
  s.outputs ++ [.response { st := st, val := v }]

/-- The record of a queue after its first use (44_scheduler.md R160). -/
def usedQueue (Q : Queue) : Queue :=
  if Q.created then Q else { Q with created := true, phase := .unstarted, k := 0 }

/-- The job EnqueueCallback makes (43_button_dispatch_repeat_timeout.md R149). -/
def callbackJob (id : JobId) (h : Handle) : Job :=
  { id := id, cb := .user h, delay := 0, remaining := 0, mode := .once }

/-- The results and the last state of appending bits one after another. -/
def feedBits : List Bool → State → List PulseResult × State
  | [], s => ([], s)
  | b :: bs, s =>
    ((appendBit b s).1 :: (feedBits bs (appendBit b s).2).1, (feedBits bs (appendBit b s).2).2)

/-- The 16-bit word whose bits arrive most significant first. -/
def receivedWord (bs : List Bool) : BitVec 16 :=
  BitVec.ofNat 16 (bs.foldl (fun n b => 2 * n + b.toNat) 0)

/-- The state after a move; every move gives a next state. -/
def afterMove (m : Move) (s : State) : State :=
  match perform m s with
  | .next t => t
  | _ => s

/-- The state after moves taken one after another. -/
def afterMoves : List Move → State → State
  | [], s => s
  | m :: ms, s => afterMoves ms (afterMove m s)

/-- `n` turns of the loop of `q`. -/
def loopTurns (q : QueueKind) : Nat → State → State
  | 0, s => s
  | n + 1, s => loopTurns q n (loopStep q s)

/-- Whether HEAD's guard holds: the loop of `q` may take its HEAD step (44_scheduler.md R168). -/
def headEnabled (q : QueueKind) (s : State) : Prop :=
  (s.queue q).created = true ∧ s.faulted = false ∧
    ((s.queue q).phase = .head ∨ ∃ w, (s.queue q).phase = .sleep w ∧ w ≤ s.now)

/-- Whether RUNJOB of `q` is enabled with the job `j` at index `i` (44_scheduler.md R171, R172). -/
def runsJob (q : QueueKind) (i : Nat) (j : Job) (s : State) : Prop :=
  (s.queue q).created = true ∧ s.faulted = false ∧ (s.queue q).phase = .run ∧
    (s.queue q).k < (s.queue q).live.length ∧
    i = (match q with
      | .cbq => (s.queue q).k
      | .prio => (s.queue q).live.length - 1 - (s.queue q).k) ∧
    (s.queue q).live[i]? = some j

/-- The first binding of `bs` that matches `c` has a callback, of handle `h`
(43_button_dispatch_repeat_timeout.md R148, R149). -/
def hasCallback (bs : List Binding) (c : BitVec 8) (h : Handle) : Prop :=
  ∃ b, lookupBinding bs c = some b ∧ b.present = true ∧ b.handle = h

/-- No binding of `bs` matches `c`, or the first that does has no callback
(43_button_dispatch_repeat_timeout.md R148, R149). -/
def noCallback (bs : List Binding) (c : BitVec 8) : Prop :=
  ∀ b, lookupBinding bs c = some b → b.present = false

/-- FAULT_CAUSE after `c` is raised: the first cause is kept (60_exceptions.md R233). -/
def firstCause (s : State) (c : FaultCause) : Option FaultCause :=
  if s.faultCause = none then some c else s.faultCause

/-- Whether DrawId finds no fresh id, `n` ids being issued (44_scheduler.md R164, log entry 15). -/
def noFreshId (s : State) (n : Nat) : Prop := 2 ^ s.params.wId ≤ n + 1

/-- The instruction a move has the host issue, if it is a legal command. -/
def moveInstr : Move → Option Instr
  | .command w => (decode w).toOption
  | _ => none

/-- Whether a move is a turn of the loop of `q` in which RUNJOB fires the job with this id
(44_scheduler.md R172). -/
def firesJob (q : QueueKind) (id : JobId) (m : Move) (s : State) : Bool :=
  decide (m = .loop q) && (s.queue q).created && !s.faulted && decide ((s.queue q).phase = .run) &&
    decide ((s.queue q).k < (s.queue q).live.length) &&
    match (s.queue q).live[jobIndex q (s.queue q).live.length (s.queue q).k]? with
    | some j => decide (j.id = id) && (jobRun j (s.queue q).delta).fired
    | none => false

/-- How often the job with this id fires while the moves are taken. -/
def firings (q : QueueKind) (id : JobId) : List Move → State → Nat
  | [], _ => 0
  | m :: ms, s => (firesJob q id m s).toNat + firings q id ms (afterMove m s)

end Sys2Proof.Machine

/-! ### Encoding -/

/-- Decode and encode agree on every well-formed instruction, with every operand at every value its
field admits (30_encoding.md R80 to R90, R93). -/
def Obligations.DecodeOfEncode : Prop :=
  ∀ i : Instr, i.wellFormed = true → decode (encode i) = .ok i

/-- Every legal word is the encoding of the one well-formed instruction it decodes to: no bit of a
legal word is dropped (30_encoding.md R91, R95). -/
def Obligations.EncodeOfDecode : Prop :=
  ∀ (w : Word) (i : Instr), decode w = .ok i → i.wellFormed = true ∧ encode i = w

/-- A word decodes exactly when none of the conditions (a) to (d) of 30_encoding.md R91 holds. -/
def Obligations.DecodeAcceptsExactlyLegalWords : Prop :=
  ∀ w : Word, (∃ i, decode w = .ok i) ↔
    (w &&& 0xFFFFFFFFFFFFFFFF = 0x0000000000000000 ∨
     w &&& 0xFF7FFFFFFFFFFF00 = 0x1000000000000000 ∨
     (w &&& 0xF6FF0000FFFFFE00 = 0x2000000000000000 ∧ (w.extractLsb' 0 9).toNat ≤ 0x100) ∨
     w &&& 0xF1FF000000000000 = 0x3000000000000000 ∨
     w &&& 0xFBFFFFFF00000000 = 0x4000000000000000 ∨
     w &&& 0xFFFFFFFFFFFFFFFF = 0x5000000000000000 ∨
     (w &&& 0xFBFFFFFFFFFFFFF0 = 0x6000000000000000 ∧ (w.extractLsb' 0 4).toNat ≤ 11) ∨
     w &&& 0xFBFFFFFFFFFFFFFF = 0x7000000000000000)

/-- The encoding examples of 30_encoding.md R102 decode to the commands they stand for. -/
def Obligations.EncodingExamplesDecode : Prop :=
  decode 0x1000000000000000 = .ok (.connect .nec 0) ∧
  decode 0x1080000000000000 = .ok (.connect .keyestudio 0) ∧
  decode 0x2800000100000016 = .ok (.onButton true .pressed 1 0x16) ∧
  decode 0x2900000200000016 = .ok (.onButton true .released 2 0x16) ∧
  decode 0x2800000300000100 = .ok (.onButton true .pressed 3 0x100) ∧
  decode 0x3C00000A00000000 = .ok (.schedule true .cbq .once 0xA 0) ∧
  decode 0x3A00000500000032 = .ok (.schedule true .prio .repeating 5 50) ∧
  decode 0x3C000007FFFFFFFF = .ok (.schedule true .cbq .once 7 (-1)) ∧
  decode 0x340000000000000A = .ok (.schedule false .cbq .once 0 10) ∧
  decode 0x4400000000000003 = .ok (.cancel .cbq 3) ∧
  decode 0x5000000000000000 = .ok .queryDatagram ∧
  decode 0x6000000000000007 = .ok (.readState .prio 7) ∧
  decode 0x6400000000000008 = .ok (.readState .cbq 8) ∧
  decode 0x7400000000000000 = .ok (.cbReturn .cbq) ∧
  decode 0x7000000000000000 = .ok (.cbReturn .prio)

/-! ### The step -/

/-- The host's command step runs the decoded command: the command leaves the agenda, and the step is
exec of it (45_host_commands.md R200). The agenda is the model's own (log entry 2). -/
def Obligations.StepRunsDecodedCommand : Prop :=
  ∀ (s : State) (w : Word) (rest : List Move) (i : Instr),
    s.agenda = .command w :: rest → decode w = .ok i → i.wellFormed = true →
      step s = exec i { s with agenda := rest }

/-- An ILLEGAL word is answered and changes nothing; FAULTED wins over ILLEGAL (60_exceptions.md
R232, R240). The agenda is the model's own (log entry 2). -/
def Obligations.StepAnswersIllegalWord : Prop :=
  ∀ (s : State) (w : Word) (rest : List Move) (r : IllegalReason),
    s.agenda = .command w :: rest → decode w = .error r →
      step s = .next { s with
        agenda := rest
        outputs := answered s (if s.faultCause = none then .illegal else .faulted) 0 }

/-- No step of any agent, from any state, stops the machine. This is the model's choice, from the absence
of a fatal condition in 60_exceptions.md R231 (log entry 9); the turn of a blocked loop and a move the
ports cannot carry are stutter steps (log entry 5). -/
def Obligations.EveryStepHasNextState : Prop :=
  ∀ s : State, ∃ t, step s = .next t

/-- While FAULT_CAUSE ≠ 0 every command except a legal READ_STATE responds FAULTED with no effect
(60_exceptions.md R234, R240). -/
def Obligations.FaultedCommandsAnswerFaulted : Prop :=
  ∀ (i : Instr) (s : State), s.faultCause ≠ none →
    (∀ q sel, i = .readState q sel → 12 ≤ sel.toNat) →
      exec i s = .next { s with outputs := answered s .faulted 0 }

/-! ### Host commands -/

/-- NOP responds OK, 0 (FAULTED when faulted) and writes no state (45_host_commands.md R201). -/
def Obligations.NopAnswersOk : Prop :=
  ∀ s : State, exec .nop s =
    .next { s with outputs := answered s (if s.faultCause = none then .ok else .faulted) 0 }

/-- The first CONNECT starts pulse detection, fixes the protocol and makes the repeat-check job; when
INS[PRIO] is full it faults, its earlier writes staying (45_host_commands.md R202, 44_scheduler.md
R166, 60_exceptions.md R233, R235). Which id the job gets is free (log entry 2). -/
def Obligations.FirstConnectStartsDetection : Prop :=
  ∀ (pr : Protocol) (pin : BitVec 8) (s : State), s.faultCause = none → s.conn = false →
    s.issued.length + 1 < 2 ^ s.params.wId →
      let connected : State := { s with
        init := true
        conn := true
        proto := pr
        markLatch := 0
        issued := s.issued ++ [drawnId s]
        choices := s.choices + 1 }
      exec (.connect pr pin) s = .next (
        if s.prio.ins.length < s.params.insCap then
          { connected with
            prio := { usedQueue s.prio with
              ins := s.prio.ins ++ [{ id := drawnId s, cb := .repeatCheck, delay := 120,
                                      remaining := 120, mode := .repeating }]
              minPoll := if 120 < s.prio.minPoll then 120 else s.prio.minPoll }
            outputs := answered s .ok 0 }
        else
          { connected with
            prio := usedQueue s.prio
            faultCause := some .insOverflow
            outputs := answered s .faulted 0 })

/-- A second CONNECT, with either protocol, changes at most INIT (45_host_commands.md R202,
42_decoder_state_machine.md R135). -/
def Obligations.SecondConnectDoesNothing : Prop :=
  ∀ (pr : Protocol) (pin : BitVec 8) (s : State), s.faultCause = none → s.conn = true →
    exec (.connect pr pin) s = .next { s with init := true, outputs := answered s .ok 0 }

/-- ON_BUTTON appends its binding at the tail of its kind's list, faults with BIND_OVERFLOW when the
list is full, and is ILLEGAL for a reserved code (45_host_commands.md R203, 60_exceptions.md R235). -/
def Obligations.OnButtonRegistersBinding : Prop :=
  ∀ (present : Bool) (cb : Handle) (code : ButtonCode) (s : State), s.faultCause = none →
    let binding : Binding :=
      { code := code, present := present, handle := if present then cb else 0 }
    let overflowed : State :=
      { s with init := true, faultCause := some .bindOverflow, outputs := answered s .faulted 0 }
    let illegal : State := { s with outputs := answered s .illegal 0 }
    exec (.onButton present .pressed cb code) s = .next (
      if 0x100 < code.toNat then illegal
      else if s.pressed.length < s.params.bindCap then
        { s with init := true, pressed := s.pressed ++ [binding], outputs := answered s .ok 0 }
      else overflowed) ∧
    exec (.onButton present .released cb code) s = .next (
      if 0x100 < code.toNat then illegal
      else if s.released.length < s.params.bindCap then
        { s with init := true, released := s.released ++ [binding], outputs := answered s .ok 0 }
      else overflowed)

/-- exec of a reserved button code or a reserved READ_STATE selector answers ILLEGAL and changes no state.
No command word decodes to one, so this is the model's choice (log entry 10), after what 30_encoding.md
R91 (c), (d) and 60_exceptions.md R232 say of the words; the words themselves are in
StepAnswersIllegalWord. -/
def Obligations.ReservedOperandsIllegal : Prop :=
  ∀ s : State, s.faultCause = none →
    (∀ (present : Bool) (kind : Transition) (cb : Handle) (code : ButtonCode), 0x100 < code.toNat →
      exec (.onButton present kind cb code) s =
        .next { s with outputs := answered s .illegal 0 }) ∧
    (∀ (q : QueueKind) (sel : BitVec 4), 12 ≤ sel.toNat →
      exec (.readState q sel) s = .next { s with outputs := answered s .illegal 0 })

/-- SCHEDULE without a callback or with a negative delay responds OK, 0 and has no other effect
(44_scheduler.md R161). -/
def Obligations.InvalidScheduleRejected : Prop :=
  ∀ (present : Bool) (q : QueueKind) (mode : Mode) (cb : Handle) (delay : BitVec 32) (s : State),
    s.faultCause = none → present = false ∨ delay.toInt < 0 →
      exec (.schedule present q mode cb delay) s =
        .next { s with outputs := answered s .ok 0 }

/-- An accepted SCHEDULE appends its job to INS[Q], shrinks MINPOLL[Q] for a faster Repeat job, and
responds the new id; into a full buffer it faults with INS_OVERFLOW, the id drawn and the poll
interval kept (44_scheduler.md R162, R163, R166, 60_exceptions.md R233, R235). Which id is drawn is
free (log entry 2). -/
def Obligations.ScheduleAppendsJob : Prop :=
  ∀ (q : QueueKind) (mode : Mode) (cb : Handle) (delay : BitVec 32) (s : State),
    s.faultCause = none → 0 ≤ delay.toInt → s.issued.length + 1 < 2 ^ s.params.wId →
      let drawn : State := { s with issued := s.issued ++ [drawnId s], choices := s.choices + 1 }
      exec (.schedule true q mode cb delay) s = .next (
        if (s.queue q).ins.length < s.params.insCap then
          State.setQueue { drawn with outputs := answered s .ok (drawnId s) } q
            { usedQueue (s.queue q) with
              ins := (s.queue q).ins ++ [{ id := drawnId s, cb := .user cb, delay := delay.toInt,
                                           remaining := delay.toInt, mode := mode }]
              minPoll :=
                if mode = .repeating ∧ 0 < delay.toNat ∧ delay.toNat < (s.queue q).minPoll
                then delay.toNat else (s.queue q).minPoll }
        else
          State.setQueue
            { drawn with faultCause := some .insOverflow, outputs := answered s .faulted 0 } q
            (usedQueue (s.queue q)))

/-- A SCHEDULE or a first CONNECT that finds 2^W_ID - 1 entries in ISSUED refuses: only REFUSED is written,
over the state before the step (44_scheduler.md R164, 60_exceptions.md R236). That no fresh id is left
exactly then is the model's reading, exact in states that meet Ids (log entry 15). The response is a
free value, so the statement gives it no value (log entry 3). -/
def Obligations.CommandsRefuseWithoutFreshId : Prop :=
  ∀ s : State, s.faultCause = none → 2 ^ s.params.wId ≤ s.issued.length + 1 →
    (∀ (q : QueueKind) (mode : Mode) (cb : Handle) (delay : BitVec 32), 0 ≤ delay.toInt →
      ∃ r : Response, exec (.schedule true q mode cb delay) s = .next { s with
        refused := true, choices := s.choices + 1, outputs := s.outputs ++ [.response r] }) ∧
    (∀ (pr : Protocol) (pin : BitVec 8), s.conn = false →
      ∃ r : Response, exec (.connect pr pin) s = .next { s with
        refused := true, choices := s.choices + 1, outputs := s.outputs ++ [.response r] })

/-- CANCEL appends its id to REM[Q] and creates the queue at its first use; into a full buffer it
faults with REM_OVERFLOW (44_scheduler.md R165, 60_exceptions.md R235). -/
def Obligations.CancelAppendsRemoval : Prop :=
  ∀ (q : QueueKind) (id : JobId) (s : State), s.faultCause = none →
    exec (.cancel q id) s = .next (
      if (s.queue q).rem.length < s.params.remCap then
        State.setQueue { s with outputs := answered s .ok 0 } q
          { usedQueue (s.queue q) with rem := (s.queue q).rem ++ [id] }
      else
        State.setQueue
          { s with faultCause := some .remOverflow, outputs := answered s .faulted 0 } q
          (usedQueue (s.queue q)))

/-- QUERY_DATAGRAM reads and clears NEWDG in one step; while faulted it responds FAULTED and clears
nothing (45_host_commands.md R204). -/
def Obligations.QueryReadsAndClearsFlag : Prop :=
  ∀ s : State, exec .queryDatagram s = .next (
    if s.faultCause = none then
      { s with newdg := false, outputs := answered s .ok (if s.newdg then 1 else 0) }
    else { s with outputs := answered s .faulted 0 })

/-- READ_STATE answers each selector's value and changes no state, faulted or not (45_host_commands.md
R205, 30_encoding.md R89). A value wider than its field gives its low bits (log entry 8). -/
def Obligations.ReadStateAnswersSelector : Prop :=
  ∀ (q : QueueKind) (s : State),
    let reads (sel : BitVec 4) (v : Val) : Prop :=
      exec (.readState q sel) s = .next { s with outputs := answered s .ok v }
    reads 0 (BitVec.ofNat 32 s.addr.toNat) ∧
    reads 1 (BitVec.ofNat 32 s.cmdf.toNat) ∧
    reads 2 (BitVec.ofNat 32 (s.acValid.toNat * 256 + s.acCode.toNat)) ∧
    reads 3 (BitVec.ofNat 32 s.bits.toNat) ∧
    reads 4 (BitVec.ofNat 32 s.hiword.toNat) ∧
    reads 5 (BitVec.ofNat 32 s.loword.toNat) ∧
    reads 6 (BitVec.ofNat 32 s.deadline) ∧
    reads 7 (BitVec.ofNat 32 (s.init.toNat + s.conn.toNat * 2
      + (decide (s.proto = .keyestudio)).toNat * 4 + s.newdg.toNat * 8
      + s.prio.created.toNat * 16 + s.cbq.created.toNat * 32
      + (decide (s.faultCause ≠ none)).toNat * 64)) ∧
    reads 8 (BitVec.ofNat 32 (s.queue q).minPoll) ∧
    reads 9 (match s.faultCause with
      | none => 0
      | some .insOverflow => 1
      | some .remOverflow => 2
      | some .liveOverflow => 3
      | some .bindOverflow => 4) ∧
    reads 10 (BitVec.ofNat 32 (s.queue q).live.length) ∧
    reads 11 (BitVec.ofNat 32 ((s.queue q).k * 65536 +
      (match (s.queue q).phase with
        | .unstarted => 0
        | .head => 1
        | .run => 2
        | .invoke => 3
        | .sleep _ => 4)))

/-- CB_RETURN ends the outstanding callback of Q; without effect, it is ILLEGAL when there is none and
FAULTED when the block is faulted (45_host_commands.md R206). -/
def Obligations.CallbackReturnResumesLoop : Prop :=
  ∀ (q : QueueKind) (s : State), exec (.cbReturn q) s = .next (
    if s.faultCause ≠ none then { s with outputs := answered s .faulted 0 }
    else if (s.queue q).phase = .invoke then
      State.setQueue { s with outputs := answered s .ok 0 } q
        { s.queue q with k := (s.queue q).k + 1, phase := .run }
    else { s with outputs := answered s .illegal 0 })

/-! ### The pulse path -/

/-- The classifier's bands; a boundary value belongs to the upper band (40_pulse_classifier.md
R110). -/
def Obligations.ClassifierBands : Prop :=
  ∀ d : Nat,
    (d < 1600 → classify d = .bit false) ∧
    (1600 ≤ d → d < 2700 → classify d = .bit true) ∧
    (2700 ≤ d → d < 12500 → classify d = .repeatMarker) ∧
    (12500 ≤ d → d < 14500 → classify d = .startMarker) ∧
    (14500 ≤ d → classify d = .noise)

/-- A non-bit class resets BITS, touches nothing else, and gives Repeat for the repeat marker and
Incomplete for start and noise (40_pulse_classifier.md R111). -/
def Obligations.NonBitClassResetsCounter : Prop :=
  ∀ s : State,
    assemble .repeatMarker s = (.repeatCode, { s with bits := 0 }) ∧
    assemble .startMarker s = (.incomplete, { s with bits := 0 }) ∧
    assemble .noise s = (.incomplete, { s with bits := 0 })

/-- AppendBit, bit by bit, from every legal count (41_datagram_assembler.md R120 to R126). -/
def Obligations.AppendBitSteps : Prop :=
  ∀ (b : Bool) (s : State) (n : Nat), s.bits.toNat = n → n ≤ 31 →
    let shift (a : BitVec 16) : BitVec 16 := BitVec.ofNat 16 (a.toNat * 2 + b.toNat)
    (n + 1 ≤ 8 → ¬(s.proto = .keyestudio ∧ b = true) →
      appendBit b s =
        (.incomplete, { s with bits := BitVec.ofNat 6 (n + 1), hiword := shift s.hiword })) ∧
    (n + 1 ≤ 8 → s.proto = .keyestudio ∧ b = true →
      appendBit b s = (.incomplete, { s with bits := 9, hiword := 1 })) ∧
    (8 < n + 1 → n + 1 ≤ 16 →
      appendBit b s =
        (.incomplete, { s with bits := BitVec.ofNat 6 (n + 1), hiword := shift s.hiword })) ∧
    (16 < n + 1 → n + 1 < 32 →
      appendBit b s =
        (.incomplete, { s with bits := BitVec.ofNat 6 (n + 1), loword := shift s.loword })) ∧
    (n + 1 = 32 →
      appendBit b s =
        (.datagram, { s with
          bits := 0, loword := shift s.loword, addr := s.hiword, cmdf := shift s.loword }))

/-- Under NEC, any 32 bits from BITS = 0 give Incomplete 31 times and then a Datagram whose fields are
the bits in arrival order, whatever the accumulators held (41_datagram_assembler.md R127, R129). -/
def Obligations.ThirtyTwoBitsMakeDatagram : Prop :=
  ∀ (bs : List Bool) (s : State), bs.length = 32 → s.bits = 0 → s.proto = .nec →
    feedBits bs s =
      (List.replicate 31 .incomplete ++ [.datagram],
       { s with
         bits := 0
         hiword := receivedWord (bs.take 16)
         loword := receivedWord (bs.drop 16)
         addr := receivedWord (bs.take 16)
         cmdf := receivedWord (bs.drop 16) })

/-- Under KEYESTUDIO, fewer than eight zeros, a one and any 23 bits give a Datagram with ADDR[15:8] = 0
and ADDR[7] = 1 (41_datagram_assembler.md R122, R129). -/
def Obligations.KeyestudioResynchronises : Prop :=
  ∀ (zeros : Nat) (bs : List Bool) (s : State), zeros < 8 → bs.length = 23 → s.bits = 0 →
    s.proto = .keyestudio →
      feedBits (List.replicate zeros false ++ true :: bs) s =
        (List.replicate (zeros + 23) .incomplete ++ [.datagram],
         { s with
           bits := 0
           hiword := receivedWord (true :: bs.take 7)
           loword := receivedWord (bs.drop 7)
           addr := receivedWord (true :: bs.take 7)
           cmdf := receivedWord (bs.drop 7) }) ∧
      (receivedWord (true :: bs.take 7)).toNat < 256 ∧
      128 ≤ (receivedWord (true :: bs.take 7)).toNat

/-- A PULSE or an EDGE before CONNECT or while faulted is consumed and changes no state
(42_decoder_state_machine.md R131). The agenda is the model's own (log entry 2). -/
def Obligations.DisabledPulsePathIgnoresEvents : Prop :=
  ∀ (s : State) (rest : List Move), s.conn = false ∨ s.faultCause ≠ none →
    (∀ d, s.agenda = .pulse d :: rest → step s = .next { s with agenda := rest }) ∧
    (∀ e t, s.agenda = .edge e t :: rest → step s = .next { s with agenda := rest })

/-- An Incomplete result crosses no boundary: the pulse writes BITS, HIWORD and LOWORD at most, so
NEWDG, ACTIVE, DEADLINE and every queue stay. Any other result is dispatched in the same step: what
Dispatch wrote before a fault stays, and a refusal inside it undoes the whole pulse, the accumulators
and the freeze included (42_decoder_state_machine.md R130, R132, 60_exceptions.md R233, R236). -/
def Obligations.IncompletePulseDispatchesNothing : Prop :=
  ∀ (d : Nat) (s : State), s.conn = true → s.faultCause = none →
    ((assemble (classify d) s).1 = .incomplete →
      pulse d s = { s with
        bits := (assemble (classify d) s).2.bits
        hiword := (assemble (classify d) s).2.hiword
        loword := (assemble (classify d) s).2.loword }) ∧
    ((assemble (classify d) s).1 ≠ .incomplete →
      pulse d s =
        match dispatch (assemble (classify d) s).1 (assemble (classify d) s).2 with
        | .done _ t => t
        | .stopped t => t
        | .refused _ => { s with refused := true })

/-- The mark-ending edge latches its duration; the space-ending edge is a pulse of mark plus space,
saturated at the top of u(W_DUR) (42_decoder_state_machine.md R133, R134). -/
def Obligations.EdgesPairIntoPulses : Prop :=
  ∀ (t : Nat) (s : State), s.conn = true → s.faultCause = none →
    (s.params.markLevel = .high → edge .fall t s = { s with markLatch := t }) ∧
    (s.params.markLevel = .low → edge .rise t s = { s with markLatch := t }) ∧
    (s.params.markLevel = .high →
      edge .rise t s = pulse (min (s.markLatch + t) (2 ^ s.params.wDur - 1)) s) ∧
    (s.params.markLevel = .low →
      edge .fall t s = pulse (min (s.markLatch + t) (2 ^ s.params.wDur - 1)) s)

/-- A repeat-marker pulse resets BITS and refreshes DEADLINE to NOW + 120, and nothing else. Beyond the
clock's range the whole step refuses, for a repeat marker and for the 32nd bit of a Datagram alike: BITS,
the accumulators, ADDR and CMDF are as before the pulse (43_button_dispatch_repeat_timeout.md R141,
R152, 60_exceptions.md R236). -/
def Obligations.RepeatPulseRefreshesDeadline : Prop :=
  ∀ (d : Nat) (s : State), s.conn = true → s.faultCause = none →
    (2700 ≤ d → d < 12500 → s.now + 120 ≤ 2 ^ s.params.wTime - 1 →
      pulse d s = { s with bits := 0, deadline := s.now + 120 }) ∧
    ((2700 ≤ d ∧ d < 12500) ∨ (d < 2700 ∧ s.bits.toNat = 31) →
      2 ^ s.params.wTime - 1 < s.now + 120 → pulse d s = { s with refused := true })

/-! ### Buttons -/

/-- Lookup returns the first binding, in registration order, of the code or of the wildcard
(43_button_dispatch_repeat_timeout.md R148). -/
def Obligations.LookupIsFirstMatch : Prop :=
  ∀ (bs : List Binding) (c : BitVec 8),
    (∀ b, lookupBinding bs c = some b ↔
      ∃ before after, bs = before ++ b :: after ∧
        (b.code.toNat = c.toNat ∨ b.code = 0x100) ∧
        ∀ x ∈ before, x.code.toNat ≠ c.toNat ∧ x.code ≠ 0x100) ∧
    (lookupBinding bs c = none ↔ ∀ x ∈ bs, x.code.toNat ≠ c.toNat ∧ x.code ≠ 0x100)

/-- A Datagram whose command is already active enqueues nothing: it writes DEADLINE and NEWDG only
(43_button_dispatch_repeat_timeout.md R147). -/
def Obligations.UnchangedCommandEmitsNothing : Prop :=
  ∀ s : State, s.acValid = true → s.acCode.toNat = s.cmdf.toNat / 256 →
    s.now + 120 ≤ 2 ^ s.params.wTime - 1 →
      dispatch .datagram s = .done () { s with deadline := s.now + 120, newdg := true }

/-- A first press: the Datagram's command becomes active, and a job is enqueued exactly when the first
matching pressed binding has a callback; with no fresh id for it the dispatch refuses
(43_button_dispatch_repeat_timeout.md R145, R146, R149, 44_scheduler.md R164). Which id is drawn is free
(log entry 2), and when none is left is log entry 15. -/
def Obligations.FirstPressActivatesCommand : Prop :=
  ∀ (s : State) (new : BitVec 8), s.acValid = false → new.toNat = s.cmdf.toNat / 256 →
    s.now + 120 ≤ 2 ^ s.params.wTime - 1 →
    (noCallback s.pressed new →
      dispatch .datagram s = .done () { s with
        deadline := s.now + 120, newdg := true, acValid := true, acCode := new }) ∧
    (∀ h, hasCallback s.pressed new h →
      (noFreshId s s.issued.length → dispatch .datagram s = .refused .idExhausted) ∧
      (¬ noFreshId s s.issued.length → s.cbq.ins.length < s.params.insCap →
        dispatch .datagram s = .done () { s with
          deadline := s.now + 120
          newdg := true
          acValid := true
          acCode := new
          issued := s.issued ++ [drawnId s]
          choices := s.choices + 1
          cbq := { usedQueue s.cbq with
            ins := s.cbq.ins ++ [callbackJob (drawnId s) h] } }))

/-- A change of command, whichever of the two lookups finds a callback: the old command's release is
enqueued before the new command's press, and then ACTIVE is updated. The first append that overflows
faults with the earlier writes kept and ACTIVE as it was, a release's overflow leaving the press out; a
draw that finds no fresh id refuses (43_button_dispatch_repeat_timeout.md R144, R145, R146, R149, R153,
44_scheduler.md R164, 60_exceptions.md R233, R235, R240). Which ids are drawn is free (log entry 2), and
when none is left is log entry 15. -/
def Obligations.ReleasePrecedesPress : Prop :=
  ∀ (s : State) (new : BitVec 8), s.acValid = true → new.toNat = s.cmdf.toNat / 256 →
    s.acCode ≠ new → s.now + 120 ≤ 2 ^ s.params.wTime - 1 →
    let refreshed : State := { s with deadline := s.now + 120, newdg := true }
    let drawn : State :=
      { refreshed with issued := s.issued ++ [drawnId s], choices := s.choices + 1 }
    let overflowed : State := { drawn with
      cbq := usedQueue s.cbq, faultCause := firstCause s .insOverflow }
    (noCallback s.released s.acCode → noCallback s.pressed new →
      dispatch .datagram s = .done () { refreshed with acValid := true, acCode := new }) ∧
    (∀ h, (hasCallback s.released s.acCode h ∧ noCallback s.pressed new) ∨
        (noCallback s.released s.acCode ∧ hasCallback s.pressed new h) →
      (noFreshId s s.issued.length → dispatch .datagram s = .refused .idExhausted) ∧
      (¬ noFreshId s s.issued.length → s.params.insCap ≤ s.cbq.ins.length →
        dispatch .datagram s = .stopped overflowed) ∧
      (¬ noFreshId s s.issued.length → s.cbq.ins.length < s.params.insCap →
        dispatch .datagram s = .done () { drawn with
          acValid := true
          acCode := new
          cbq := { usedQueue s.cbq with
            ins := s.cbq.ins ++ [callbackJob (drawnId s) h] } })) ∧
    (∀ h1 h2, hasCallback s.released s.acCode h1 → hasCallback s.pressed new h2 →
      (noFreshId s s.issued.length → dispatch .datagram s = .refused .idExhausted) ∧
      (¬ noFreshId s s.issued.length → s.params.insCap ≤ s.cbq.ins.length →
        dispatch .datagram s = .stopped overflowed) ∧
      (¬ noFreshId s s.issued.length → noFreshId s (s.issued.length + 1) →
        s.cbq.ins.length < s.params.insCap → dispatch .datagram s = .refused .idExhausted) ∧
      (¬ noFreshId s (s.issued.length + 1) → s.cbq.ins.length < s.params.insCap → ∃ id2 : JobId,
        dispatch .datagram s =
          if s.cbq.ins.length + 1 < s.params.insCap then
            .done () { s with
              deadline := s.now + 120
              newdg := true
              acValid := true
              acCode := new
              issued := s.issued ++ [drawnId s, id2]
              choices := s.choices + 2
              cbq := { usedQueue s.cbq with
                ins := s.cbq.ins ++ [callbackJob (drawnId s) h1, callbackJob id2 h2] } }
          else
            .stopped { s with
              deadline := s.now + 120
              newdg := true
              issued := s.issued ++ [drawnId s, id2]
              choices := s.choices + 2
              cbq := { usedQueue s.cbq with
                ins := s.cbq.ins ++ [callbackJob (drawnId s) h1] }
              faultCause := firstCause s .insOverflow }))

/-- A press that finds INS[CBQ] full faults with INS_OVERFLOW inside the pulse step: the writes made
before the append stay, and ACTIVE is not updated (42_decoder_state_machine.md R130,
43_button_dispatch_repeat_timeout.md R145, R149, 60_exceptions.md R233). Which id is drawn is free
(log entry 2). -/
def Obligations.PressFaultsOnFullInsertBuffer : Prop :=
  ∀ (s : State) (new : BitVec 8) (b : Binding), s.faultCause = none → s.acValid = false →
    new.toNat = s.cmdf.toNat / 256 → s.now + 120 ≤ 2 ^ s.params.wTime - 1 →
    lookupBinding s.pressed new = some b → b.present = true →
    s.issued.length + 1 < 2 ^ s.params.wId → s.params.insCap ≤ s.cbq.ins.length →
      dispatch .datagram s = .stopped { s with
        deadline := s.now + 120
        newdg := true
        issued := s.issued ++ [drawnId s]
        choices := s.choices + 1
        cbq := usedQueue s.cbq
        faultCause := some .insOverflow }

/-- The repeat-check releases the active command strictly after DEADLINE, resetting ACTIVE and BITS
and enqueuing a matching released callback, and does nothing otherwise; an overflow leaves ACTIVE and
BITS as they were, and a draw that finds no fresh id refuses (43_button_dispatch_repeat_timeout.md R150,
44_scheduler.md R164, 60_exceptions.md R233). Which id is drawn is free (log entry 2), and when none is
left is log entry 15. -/
def Obligations.RepeatCheckReleasesAfterDeadline : Prop :=
  ∀ s : State,
    (s.acValid = false ∨ s.now ≤ s.deadline → repeatCheck s = .done () s) ∧
    (s.acValid = true → s.deadline < s.now →
      (noCallback s.released s.acCode →
        repeatCheck s = .done () { s with acValid := false, acCode := 0, bits := 0 }) ∧
      (∀ h, hasCallback s.released s.acCode h →
        (noFreshId s s.issued.length → repeatCheck s = .refused .idExhausted) ∧
        (¬ noFreshId s s.issued.length → s.cbq.ins.length < s.params.insCap →
          repeatCheck s = .done () { s with
            acValid := false
            acCode := 0
            bits := 0
            issued := s.issued ++ [drawnId s]
            choices := s.choices + 1
            cbq := { usedQueue s.cbq with
              ins := s.cbq.ins ++ [callbackJob (drawnId s) h] } }) ∧
        (¬ noFreshId s s.issued.length → s.params.insCap ≤ s.cbq.ins.length →
          repeatCheck s = .stopped { s with
            issued := s.issued ++ [drawnId s]
            choices := s.choices + 1
            cbq := usedQueue s.cbq
            faultCause := firstCause s .insOverflow })))

/-! ### The scheduler -/

/-- DrawId's id is fresh: not 0, a u(W_ID), and never issued since reset (44_scheduler.md R164). How a
proposal is made fresh is the model's choice (log entry 2). -/
def Obligations.DrawnIdIsFresh : Prop :=
  ∀ s : State, s.params.wId ≤ 32 → s.issued.length + 1 < 2 ^ s.params.wId →
    drawnId s ≠ 0 ∧ (drawnId s).toNat < 2 ^ s.params.wId ∧ drawnId s ∉ s.issued

/-- DrawId admits every fresh id: a fresh proposal is the id drawn (44_scheduler.md R164). The proposal
is a free value (log entry 2). -/
def Obligations.EveryFreshIdAdmitted : Prop :=
  ∀ (wId : Nat) (issued : List JobId) (fuel : Nat) (x : JobId), x ≠ 0 → x ∉ issued →
    x.toNat < 2 ^ wId → freshFrom wId issued (fuel + 1) (x.toNat % 2 ^ wId) = x

/-- JobRun's four cases: no time passed, counting down, firing a Once job, firing a Repeat job
(44_scheduler.md R173 to R176). -/
def Obligations.JobRunCases : Prop :=
  ∀ (j : Job) (delta : Int),
    (delta ≤ 0 → jobRun j delta = { job := j, fired := false, complete := false }) ∧
    (0 < delta → 0 < j.remaining - delta →
      jobRun j delta =
        { job := { j with remaining := j.remaining - delta }, fired := false, complete := false }) ∧
    (0 < delta → j.remaining - delta ≤ 0 → j.mode = .once →
      jobRun j delta =
        { job := { j with remaining := j.remaining - delta }, fired := true, complete := true }) ∧
    (0 < delta → j.remaining - delta ≤ 0 → j.mode = .repeating →
      jobRun j delta =
        { job := { j with remaining := j.delay }, fired := true, complete := false })

/-- START records NOW and begins the first pass (44_scheduler.md R167). -/
def Obligations.StartRecordsClock : Prop :=
  ∀ (q : QueueKind) (s : State), (s.queue q).created = true → s.faultCause = none →
    (s.queue q).phase = .unstarted →
      loopStep q s = s.setQueue q { s.queue q with prev := s.now, phase := .head }

/-- HEAD measures DELTA, drains both buffers in one step and begins the pass, from the phase Head and
from a sleep that is over; a live list longer than JOB_CAP faults with LIVE_OVERFLOW, the drains
staying and LIVE[q] keeping its old value (44_scheduler.md R168, R169, 60_exceptions.md R233, R235). -/
def Obligations.HeadDrainsBuffers : Prop :=
  ∀ (q : QueueKind) (s : State), headEnabled q s →
    let kept := ((s.queue q).live ++ (s.queue q).ins).filter
      fun j => j.id ∉ (s.queue q).rem
    let drained : Queue := { s.queue q with
      delta := (s.now : Int) - (s.queue q).prev, prev := s.now, ins := [], rem := [] }
    loopStep q s =
      if kept.length ≤ s.params.jobCap then
        s.setQueue q { drained with live := kept, k := 0, phase := .run }
      else State.setQueue { s with faultCause := some .liveOverflow } q drained

/-- RUNJOB on a job that does not fire updates its countdown and moves the cursor (44_scheduler.md
R171 to R174). -/
def Obligations.RunJobCountsDown : Prop :=
  ∀ (q : QueueKind) (i : Nat) (j : Job) (s : State), runsJob q i j s →
    (s.queue q).delta ≤ 0 ∨ 0 < j.remaining - (s.queue q).delta →
      loopStep q s = s.setQueue q { s.queue q with
        live := (s.queue q).live.set i
          (if (s.queue q).delta ≤ 0 then j
           else { j with remaining := j.remaining - (s.queue q).delta })
        k := (s.queue q).k + 1 }

/-- RUNJOB firing a host callback emits INVOKE and waits in Invoke; a Once job's id goes into REM[q] in
the same step, a Repeat job's countdown restarts at its delay (44_scheduler.md R172, R175 to R178). -/
def Obligations.RunJobInvokesCallback : Prop :=
  ∀ (q : QueueKind) (i : Nat) (j : Job) (h : Handle) (s : State), runsJob q i j s →
    0 < (s.queue q).delta → j.remaining - (s.queue q).delta ≤ 0 → j.cb = .user h →
    (j.mode = .once → (s.queue q).rem.length < s.params.remCap →
      loopStep q s = State.setQueue
        { s with outputs := s.outputs ++ [.invoke q h] } q
        { s.queue q with
          live := (s.queue q).live.set i { j with remaining := j.remaining - (s.queue q).delta }
          rem := (s.queue q).rem ++ [j.id]
          phase := .invoke }) ∧
    (j.mode = .repeating →
      loopStep q s = State.setQueue
        { s with outputs := s.outputs ++ [.invoke q h] } q
        { s.queue q with
          live := (s.queue q).live.set i { j with remaining := j.delay }
          phase := .invoke })

/-- A completed Once job that finds REM[q] full faults with REM_OVERFLOW: its countdown stays updated,
nothing is invoked and the cursor does not move (44_scheduler.md R178, 60_exceptions.md R233, R235). -/
def Obligations.RunJobFaultsOnFullRemovalBuffer : Prop :=
  ∀ (q : QueueKind) (i : Nat) (j : Job) (s : State), runsJob q i j s →
    0 < (s.queue q).delta → j.remaining - (s.queue q).delta ≤ 0 → j.mode = .once →
    s.params.remCap ≤ (s.queue q).rem.length →
      loopStep q s = State.setQueue { s with faultCause := some .remOverflow } q
        { s.queue q with
          live := (s.queue q).live.set i
            { j with remaining := j.remaining - (s.queue q).delta } }

/-- RUNJOB firing the repeat-check restarts its countdown and runs its body within the same step, then
moves the cursor; a fault inside the body keeps the writes so far and leaves the cursor, and a refusal
undoes the whole step. The clauses after the first say what that is with no release due, with a release
that has no callback, and with one that has (44_scheduler.md R164, R172, R176, R177,
43_button_dispatch_repeat_timeout.md R150, 60_exceptions.md R233, R236). Which id is drawn is free (log
entry 2), and when none is left is log entry 15. -/
def Obligations.RunJobRunsRepeatCheck : Prop :=
  ∀ (q : QueueKind) (i : Nat) (j : Job) (s : State), runsJob q i j s →
    0 < (s.queue q).delta → j.remaining - (s.queue q).delta ≤ 0 → j.mode = .repeating →
    j.cb = .repeatCheck →
    let counted : State := s.setQueue q { s.queue q with
      live := (s.queue q).live.set i { j with remaining := j.delay } }
    let advanced (t : State) : State := t.setQueue q { t.queue q with k := (t.queue q).k + 1 }
    (loopStep q s =
      match repeatCheck counted with
      | .done _ t => advanced t
      | .stopped t => t
      | .refused _ => { s with refused := true }) ∧
    (s.acValid = false ∨ s.now ≤ s.deadline → loopStep q s = advanced counted) ∧
    (s.acValid = true → s.deadline < s.now →
      (noCallback s.released s.acCode →
        loopStep q s = advanced { counted with acValid := false, acCode := 0, bits := 0 }) ∧
      (∀ h, hasCallback s.released s.acCode h →
        (noFreshId s s.issued.length → loopStep q s = { s with refused := true }) ∧
        (¬ noFreshId s s.issued.length → counted.cbq.ins.length < s.params.insCap →
          loopStep q s = advanced { counted with
            acValid := false
            acCode := 0
            bits := 0
            issued := s.issued ++ [drawnId s]
            choices := s.choices + 1
            cbq := { usedQueue counted.cbq with
              ins := counted.cbq.ins ++ [callbackJob (drawnId s) h] } }) ∧
        (¬ noFreshId s s.issued.length → s.params.insCap ≤ counted.cbq.ins.length →
          loopStep q s = { counted with
            issued := s.issued ++ [drawnId s]
            choices := s.choices + 1
            cbq := usedQueue counted.cbq
            faultCause := some .insOverflow })))

/-- END sleeps for MINPOLL[q] from NOW (44_scheduler.md R179). -/
def Obligations.EndSleepsForPollInterval : Prop :=
  ∀ (q : QueueKind) (s : State), (s.queue q).created = true → s.faultCause = none →
    (s.queue q).phase = .run → (s.queue q).k = (s.queue q).live.length →
      loopStep q s = s.setQueue q { s.queue q with
        phase := .sleep ((s.now : Int) + ((s.queue q).minPoll : Int)) }

/-- A loop takes no step before its queue exists, while faulted, while a callback is outstanding, or
before its sleep is over (44_scheduler.md R177, R180, 60_exceptions.md R234). That such a turn is a
stutter is the model's choice (log entry 5). -/
def Obligations.BlockedLoopDoesNothing : Prop :=
  ∀ (q : QueueKind) (s : State),
    (s.queue q).created = false ∨ s.faultCause ≠ none ∨ (s.queue q).phase = .invoke ∨
      (∃ w, (s.queue q).phase = .sleep w ∧ (s.now : Int) < w) →
      loopStep q s = s

/-- A pass in which no time has passed fires nothing: one turn per live job and one END bring the loop
to sleep with every job unchanged (44_scheduler.md R173, R179). -/
def Obligations.ZeroDeltaPassOnlySleeps : Prop :=
  ∀ (q : QueueKind) (s : State), (s.queue q).created = true → s.faultCause = none →
    (s.queue q).phase = .run → (s.queue q).k = 0 → (s.queue q).delta = 0 →
      loopTurns q ((s.queue q).live.length + 1) s = s.setQueue q { s.queue q with
        k := (s.queue q).live.length
        phase := .sleep ((s.now : Int) + ((s.queue q).minPoll : Int)) }

/-! ### Clock and reset -/

/-- TICK advances NOW, faulted or not; a clock that would wrap refuses and keeps NOW (30_encoding.md
R98, 60_exceptions.md R234, R236). The agenda is the model's own (log entry 2). -/
def Obligations.TickAdvancesClock : Prop :=
  ∀ (s : State) (n : Nat) (rest : List Move), s.agenda = .tick n :: rest → 1 ≤ n →
    (s.now + n ≤ 2 ^ s.params.wTime - 1 →
      step s = .next { s with agenda := rest, now := s.now + n }) ∧
    (2 ^ s.params.wTime - 1 < s.now + n →
      step s = .next { s with agenda := rest, refused := true })

/-- RESET sets every element to its reset value except NOW and REFUSED (10_state.md R49,
70_reset_and_hazards.md R260). The model's own fields (log entries 2, 6) stay. -/
def Obligations.ResetRestoresResetValues : Prop :=
  ∀ (s : State) (rest : List Move), s.agenda = .reset :: rest →
    let empty : Queue :=
      { created := false, live := [], ins := [], rem := [], minPoll := s.params.pollInitMs,
        prev := 0, delta := 0, phase := .unstarted, k := 0 }
    step s = .next
      { init := false, conn := false, proto := .nec, bits := 0, hiword := 0, loword := 0,
        addr := 0, cmdf := 0, newdg := false, acValid := false, acCode := 0, deadline := 0,
        markLatch := 0, pressed := [], released := [], prio := empty, cbq := empty,
        faultCause := none, refused := s.refused, issued := [], now := s.now,
        params := s.params, agenda := rest, outputs := s.outputs, choices := s.choices }

/-! ### Invariants and rules of the whole machine -/

/-- The start of a run meets every invariant, for all legal parameters and every value of the clock
(10_state.md R47, R49). -/
def Obligations.PowerUpMeetsInvariants : Prop :=
  ∀ (p : Params) (now : Nat), p.Legal → now < 2 ^ p.wTime →
    Bounds (State.powerUp p now) ∧ Ids (State.powerUp p now) ∧ Countdowns (State.powerUp p now)

/-- Every step keeps the ranges and limits of the state (10_state.md R26 to R47,
41_datagram_assembler.md R128, 44_scheduler.md R183). -/
def Obligations.StepKeepsBounds : Prop :=
  ∀ s t : State, Bounds s → step s = .next t → Bounds t

/-- Every step keeps the identifier discipline: ISSUED repeats no id, and an id names at most one job
in the block (44_scheduler.md R164). -/
def Obligations.StepKeepsIdentifiersUnique : Prop :=
  ∀ s t : State, Bounds s → Ids s → step s = .next t → Ids t

/-- Every step keeps the countdown invariant: in an unfaulted block a Once job that its pass has fired,
with `remaining` at 0 or below, waits in REM[q], so that the next HEAD drops it (44_scheduler.md R174,
R175, R178, 10_state.md R42). -/
def Obligations.StepKeepsCountdowns : Prop :=
  ∀ s t : State, Bounds s → Ids s → Countdowns s → step s = .next t → Countdowns t

/-- A cancelled job disappears: whatever moves follow, short of a RESET or a fault, its id still waits
in REM[q] or no live or waiting job of q has it. And it fires at most once more: once at most while the
run is not refused, and never when the pass under way has no turn left for it, as when it is not live
(44_scheduler.md R165, R169, R182, 60_exceptions.md R236). -/
def Obligations.CancelledJobDisappears : Prop :=
  ∀ (q : QueueKind) (id : JobId) (s : State) (ms : List Move), Bounds s → Ids s →
    id ∈ (s.queue q).rem → id ∈ s.issued → Move.reset ∉ ms →
    ((afterMoves ms s).faultCause = none →
      id ∈ ((afterMoves ms s).queue q).rem ∨
        ∀ j ∈ ((afterMoves ms s).queue q).live ++ ((afterMoves ms s).queue q).ins, j.id ≠ id) ∧
    ((afterMoves ms s).refused = false →
      firings q id ms s ≤ 1 ∧
      ((∀ p, nextPosition (s.queue q) ≤ p → p < (s.queue q).live.length →
          ∀ j ∈ (s.queue q).live[jobIndex q (s.queue q).live.length p]?, j.id ≠ id) →
        firings q id ms s = 0))

/-- The clock never goes back, in any step (10_state.md R47), and no step changes the parameters, which
is the model's choice (log entry 6). -/
def Obligations.ClockNeverDecreases : Prop :=
  ∀ s t : State, step s = .next t → s.now ≤ t.now ∧ t.params = s.params

/-- The poll interval only shrinks in every step but RESET, which restores POLL_INIT_MS, and a positive
one stays positive (44_scheduler.md R183). -/
def Obligations.PollIntervalNeverGrows : Prop :=
  ∀ (q : QueueKind) (s t : State), step s = .next t →
    ((takeMove s).1 ≠ .reset →
      (t.queue q).minPoll ≤ (s.queue q).minPoll ∧
      (1 ≤ (s.queue q).minPoll → 1 ≤ (t.queue q).minPoll)) ∧
    ((takeMove s).1 = .reset → (t.queue q).minPoll = s.params.pollInitMs)

/-- A faulted block stops: in every step but RESET nothing changes but NOW, REFUSED and the model's own
fields, FAULT_CAUSE keeps its first cause, and no INVOKE is emitted (60_exceptions.md R233, R234). -/
def Obligations.FaultedBlockStops : Prop :=
  ∀ s t : State, s.faultCause ≠ none → step s = .next t → (takeMove s).1 ≠ .reset →
    sameBlock s t ∧ (t.outputs = s.outputs ∨ ∃ r, t.outputs = s.outputs ++ [.response r])

/-- In every step but RESET, only the loop of q writes LIVE[q], and a job's membership in LIVE[q]
changes only at a HEAD of q (20_memory.md R70). -/
def Obligations.OnlyOwnLoopWritesLiveList : Prop :=
  ∀ (q : QueueKind) (s t : State), step s = .next t → (takeMove s).1 ≠ .reset →
    ((takeMove s).1 ≠ .loop q → (t.queue q).live = (s.queue q).live) ∧
    ((takeMove s).1 = .loop q → ¬ headEnabled q s →
      (t.queue q).live.map Job.id = (s.queue q).live.map Job.id)

/-- The writers of the decoder record and the binding lists, in every step but RESET: the pulse path
alone writes HIWORD, LOWORD, ADDR, CMDF and DEADLINE and sets NEWDG; besides it only the Priority loop's
repeat-check writes BITS and ACTIVE; MARK_LATCH is written by EDGE and cleared by CONNECT; NEWDG is
cleared by QUERY_DATAGRAM only; CONN and PROTO are written by CONNECT only, INIT by CONNECT and
ON_BUTTON only, and the lists by ON_BUTTON only (10_state.md R25 to R35, R50, 45_host_commands.md R202,
R203, R204). -/
def Obligations.DecoderRecordOwnership : Prop :=
  ∀ s t : State, Bounds s → step s = .next t → (takeMove s).1 ≠ .reset →
    let move := (takeMove s).1
    let noPulse := (∀ d, move ≠ .pulse d) ∧ ∀ e d, move ≠ .edge e d
    let noConnect := ∀ pr pin, moveInstr move ≠ some (.connect pr pin)
    let noOnButton := ∀ p k cb code, moveInstr move ≠ some (.onButton p k cb code)
    (noPulse →
      t.hiword = s.hiword ∧ t.loword = s.loword ∧ t.addr = s.addr ∧ t.cmdf = s.cmdf ∧
      t.deadline = s.deadline ∧ (t.newdg = true → s.newdg = true)) ∧
    (noPulse → move ≠ .loop .prio →
      t.bits = s.bits ∧ t.acValid = s.acValid ∧ t.acCode = s.acCode) ∧
    ((∀ e d, move ≠ .edge e d) → noConnect → t.markLatch = s.markLatch) ∧
    (moveInstr move ≠ some .queryDatagram → s.newdg = true → t.newdg = true) ∧
    (noConnect → t.conn = s.conn ∧ t.proto = s.proto) ∧
    (noConnect → noOnButton → t.init = s.init) ∧
    (noOnButton → t.pressed = s.pressed ∧ t.released = s.released)

/-- A loop that has invoked a callback waits: in every step but RESET and a CB_RETURN of that queue its
PHASE stays Invoke (44_scheduler.md R177, 70_reset_and_hazards.md R271). -/
def Obligations.InvokedLoopWaitsForReturn : Prop :=
  ∀ (q : QueueKind) (s t : State), Bounds s → (s.queue q).phase = .invoke →
    step s = .next t → (takeMove s).1 ≠ .reset →
    (∀ w, (takeMove s).1 = .command w → decode w ≠ .ok (.cbReturn q)) →
      (t.queue q).phase = .invoke
end

