-- ==== Sys2Proof/Laws/Encoding.lean ====
section
/-! SUPPORT. What each field of the command format reads in a packed command word
(30_encoding.md R80). -/

namespace Sys2Proof

variable (op : BitVec 4) (p q m k pr : Bool) (cb : Handle) (imm : BitVec 32)

@[simp] theorem opField_packCommand : opField (packCommand op p q m k pr cb imm) = op := by
  apply BitVec.eq_of_getLsbD_eq
  intro i hi
  have hcases : i = 0 ∨ i = 1 ∨ i = 2 ∨ i = 3 := by omega
  simp only [opField, packCommand, BitVec.getLsbD_extractLsb', BitVec.getLsbD_append]
  rcases hcases with rfl | rfl | rfl | rfl <;> simp

@[simp] theorem presentField_packCommand :
    presentField (packCommand op p q m k pr cb imm) = p := by
  simp only [presentField, packCommand, BitVec.getLsbD_append]
  simp

theorem queueBit_packCommand : (packCommand op p q m k pr cb imm).getLsbD 58 = q := by
  simp only [packCommand, BitVec.getLsbD_append]
  simp

theorem modeBit_packCommand : (packCommand op p q m k pr cb imm).getLsbD 57 = m := by
  simp only [packCommand, BitVec.getLsbD_append]
  simp

theorem kindBit_packCommand : (packCommand op p q m k pr cb imm).getLsbD 56 = k := by
  simp only [packCommand, BitVec.getLsbD_append]
  simp

theorem protocolBit_packCommand : (packCommand op p q m k pr cb imm).getLsbD 55 = pr := by
  simp only [packCommand, BitVec.getLsbD_append]
  simp

@[simp] theorem queueField_packCommand (r : QueueKind) :
    queueField (packCommand op p (queueBit r) m k pr cb imm) = r := by
  rw [queueField, queueBit_packCommand]
  cases r <;> rfl

@[simp] theorem modeField_packCommand (r : Mode) :
    modeField (packCommand op p q (modeBit r) k pr cb imm) = r := by
  rw [modeField, modeBit_packCommand]
  cases r <;> rfl

@[simp] theorem kindField_packCommand (r : Transition) :
    kindField (packCommand op p q m (kindBit r) pr cb imm) = r := by
  rw [kindField, kindBit_packCommand]
  cases r <;> rfl

@[simp] theorem protocolField_packCommand (r : Protocol) :
    protocolField (packCommand op p q m k (protocolBit r) cb imm) = r := by
  rw [protocolField, protocolBit_packCommand]
  cases r <;> rfl

@[simp] theorem handleField_packCommand : handleField (packCommand op p q m k pr cb imm) = cb := by
  apply BitVec.eq_of_getLsbD_eq
  intro i hi
  simp only [handleField, packCommand, BitVec.getLsbD_extractLsb', BitVec.getLsbD_append]
  have hlow : ¬32 + i < 32 := by omega
  simp only [hlow, if_false, Nat.add_sub_cancel_left, hi, if_true]
  simp

@[simp] theorem immField_packCommand : immField (packCommand op p q m k pr cb imm) = imm := by
  apply BitVec.eq_of_getLsbD_eq
  intro i hi
  simp only [immField, packCommand, BitVec.getLsbD_extractLsb', BitVec.getLsbD_append]
  simp [hi]

end Sys2Proof
end

