-- ==== Sys2Proof/Laws/State.lean ====
section
/-! SUPPORT. The small lemmas of the state's updates: what each update does to each field, so that no
later proof unfolds an update. -/

namespace Sys2Proof.Machine

@[simp] theorem queue_setQueue (s : State) (q : QueueKind) (Q : Queue) :
    (s.setQueue q Q).queue q = Q := by cases q <;> rfl

theorem queue_setQueue_of_ne (s : State) (q r : QueueKind) (Q : Queue) (h : r ≠ q) :
    (s.setQueue q Q).queue r = s.queue r := by cases q <;> cases r <;> first | rfl | exact absurd rfl h

@[simp] theorem setQueue_setQueue (s : State) (q : QueueKind) (Q R : Queue) :
    (s.setQueue q Q).setQueue q R = s.setQueue q R := by cases q <;> rfl

@[simp] theorem setQueue_queue (s : State) (q : QueueKind) : s.setQueue q (s.queue q) = s := by
  cases q <;> rfl

@[simp] theorem queue_prio (s : State) : s.queue .prio = s.prio := rfl

@[simp] theorem queue_cbq (s : State) : s.queue .cbq = s.cbq := rfl

@[simp] theorem faulted_setQueue (s : State) (q : QueueKind) (Q : Queue) :
    (s.setQueue q Q).faulted = s.faulted := by cases q <;> rfl

@[simp] theorem faulted_emit (s : State) (e : Output) : (s.emit e).faulted = s.faulted := rfl

@[simp] theorem queue_emit (s : State) (e : Output) (q : QueueKind) :
    (s.emit e).queue q = s.queue q := by cases q <;> rfl

@[simp] theorem queue_respond (s : State) (st : Status) (v : Val) (q : QueueKind) :
    (s.respond st v).queue q = s.queue q := by cases q <;> rfl

@[simp] theorem queue_refuse (s : State) (q : QueueKind) : s.refuse.queue q = s.queue q := by
  cases q <;> rfl

@[simp] theorem emit_outputs (s : State) (e : Output) : (s.emit e).outputs = s.outputs ++ [e] := rfl

@[simp] theorem respond_outputs (s : State) (st : Status) (v : Val) :
    (s.respond st v).outputs = s.outputs ++ [.response { st := st, val := v }] := rfl

@[simp] theorem refuse_refused (s : State) : s.refuse.refused = true := rfl

@[simp] theorem setQueue_prio_prio (s : State) (Q : Queue) : (s.setQueue .prio Q).prio = Q := rfl

@[simp] theorem setQueue_prio_cbq (s : State) (Q : Queue) : (s.setQueue .prio Q).cbq = s.cbq := rfl

@[simp] theorem setQueue_cbq_cbq (s : State) (Q : Queue) : (s.setQueue .cbq Q).cbq = Q := rfl

@[simp] theorem setQueue_cbq_prio (s : State) (Q : Queue) : (s.setQueue .cbq Q).prio = s.prio := rfl

/-! ### Every other field is unchanged -/

@[simp] theorem setQueue_init (s : State) (q : QueueKind) (Q : Queue) :
    (s.setQueue q Q).init = s.init := by cases q <;> rfl

@[simp] theorem setQueue_conn (s : State) (q : QueueKind) (Q : Queue) :
    (s.setQueue q Q).conn = s.conn := by cases q <;> rfl

@[simp] theorem setQueue_proto (s : State) (q : QueueKind) (Q : Queue) :
    (s.setQueue q Q).proto = s.proto := by cases q <;> rfl

@[simp] theorem setQueue_bits (s : State) (q : QueueKind) (Q : Queue) :
    (s.setQueue q Q).bits = s.bits := by cases q <;> rfl

@[simp] theorem setQueue_hiword (s : State) (q : QueueKind) (Q : Queue) :
    (s.setQueue q Q).hiword = s.hiword := by cases q <;> rfl

@[simp] theorem setQueue_loword (s : State) (q : QueueKind) (Q : Queue) :
    (s.setQueue q Q).loword = s.loword := by cases q <;> rfl

@[simp] theorem setQueue_addr (s : State) (q : QueueKind) (Q : Queue) :
    (s.setQueue q Q).addr = s.addr := by cases q <;> rfl

@[simp] theorem setQueue_cmdf (s : State) (q : QueueKind) (Q : Queue) :
    (s.setQueue q Q).cmdf = s.cmdf := by cases q <;> rfl

@[simp] theorem setQueue_newdg (s : State) (q : QueueKind) (Q : Queue) :
    (s.setQueue q Q).newdg = s.newdg := by cases q <;> rfl

@[simp] theorem setQueue_acValid (s : State) (q : QueueKind) (Q : Queue) :
    (s.setQueue q Q).acValid = s.acValid := by cases q <;> rfl

@[simp] theorem setQueue_acCode (s : State) (q : QueueKind) (Q : Queue) :
    (s.setQueue q Q).acCode = s.acCode := by cases q <;> rfl

@[simp] theorem setQueue_deadline (s : State) (q : QueueKind) (Q : Queue) :
    (s.setQueue q Q).deadline = s.deadline := by cases q <;> rfl

@[simp] theorem setQueue_markLatch (s : State) (q : QueueKind) (Q : Queue) :
    (s.setQueue q Q).markLatch = s.markLatch := by cases q <;> rfl

@[simp] theorem setQueue_pressed (s : State) (q : QueueKind) (Q : Queue) :
    (s.setQueue q Q).pressed = s.pressed := by cases q <;> rfl

@[simp] theorem setQueue_released (s : State) (q : QueueKind) (Q : Queue) :
    (s.setQueue q Q).released = s.released := by cases q <;> rfl

@[simp] theorem setQueue_faultCause (s : State) (q : QueueKind) (Q : Queue) :
    (s.setQueue q Q).faultCause = s.faultCause := by cases q <;> rfl

@[simp] theorem setQueue_refused (s : State) (q : QueueKind) (Q : Queue) :
    (s.setQueue q Q).refused = s.refused := by cases q <;> rfl

@[simp] theorem setQueue_issued (s : State) (q : QueueKind) (Q : Queue) :
    (s.setQueue q Q).issued = s.issued := by cases q <;> rfl

@[simp] theorem setQueue_now (s : State) (q : QueueKind) (Q : Queue) :
    (s.setQueue q Q).now = s.now := by cases q <;> rfl

@[simp] theorem setQueue_params (s : State) (q : QueueKind) (Q : Queue) :
    (s.setQueue q Q).params = s.params := by cases q <;> rfl

@[simp] theorem setQueue_agenda (s : State) (q : QueueKind) (Q : Queue) :
    (s.setQueue q Q).agenda = s.agenda := by cases q <;> rfl

@[simp] theorem setQueue_outputs (s : State) (q : QueueKind) (Q : Queue) :
    (s.setQueue q Q).outputs = s.outputs := by cases q <;> rfl

@[simp] theorem setQueue_choices (s : State) (q : QueueKind) (Q : Queue) :
    (s.setQueue q Q).choices = s.choices := by cases q <;> rfl

@[simp] theorem emit_init (s : State) (e : Output) : (s.emit e).init = s.init := rfl

@[simp] theorem emit_conn (s : State) (e : Output) : (s.emit e).conn = s.conn := rfl

@[simp] theorem emit_proto (s : State) (e : Output) : (s.emit e).proto = s.proto := rfl

@[simp] theorem emit_bits (s : State) (e : Output) : (s.emit e).bits = s.bits := rfl

@[simp] theorem emit_hiword (s : State) (e : Output) : (s.emit e).hiword = s.hiword := rfl

@[simp] theorem emit_loword (s : State) (e : Output) : (s.emit e).loword = s.loword := rfl

@[simp] theorem emit_addr (s : State) (e : Output) : (s.emit e).addr = s.addr := rfl

@[simp] theorem emit_cmdf (s : State) (e : Output) : (s.emit e).cmdf = s.cmdf := rfl

@[simp] theorem emit_newdg (s : State) (e : Output) : (s.emit e).newdg = s.newdg := rfl

@[simp] theorem emit_acValid (s : State) (e : Output) : (s.emit e).acValid = s.acValid := rfl

@[simp] theorem emit_acCode (s : State) (e : Output) : (s.emit e).acCode = s.acCode := rfl

@[simp] theorem emit_deadline (s : State) (e : Output) : (s.emit e).deadline = s.deadline := rfl

@[simp] theorem emit_markLatch (s : State) (e : Output) : (s.emit e).markLatch = s.markLatch := rfl

@[simp] theorem emit_pressed (s : State) (e : Output) : (s.emit e).pressed = s.pressed := rfl

@[simp] theorem emit_released (s : State) (e : Output) : (s.emit e).released = s.released := rfl

@[simp] theorem emit_faultCause (s : State) (e : Output) : (s.emit e).faultCause = s.faultCause := rfl

@[simp] theorem emit_refused (s : State) (e : Output) : (s.emit e).refused = s.refused := rfl

@[simp] theorem emit_issued (s : State) (e : Output) : (s.emit e).issued = s.issued := rfl

@[simp] theorem emit_now (s : State) (e : Output) : (s.emit e).now = s.now := rfl

@[simp] theorem emit_params (s : State) (e : Output) : (s.emit e).params = s.params := rfl

@[simp] theorem emit_agenda (s : State) (e : Output) : (s.emit e).agenda = s.agenda := rfl

@[simp] theorem emit_choices (s : State) (e : Output) : (s.emit e).choices = s.choices := rfl

@[simp] theorem emit_prio (s : State) (e : Output) : (s.emit e).prio = s.prio := rfl

@[simp] theorem emit_cbq (s : State) (e : Output) : (s.emit e).cbq = s.cbq := rfl

@[simp] theorem respond_init (s : State) (st : Status) (v : Val) :
    (s.respond st v).init = s.init := rfl

@[simp] theorem respond_conn (s : State) (st : Status) (v : Val) :
    (s.respond st v).conn = s.conn := rfl

@[simp] theorem respond_proto (s : State) (st : Status) (v : Val) :
    (s.respond st v).proto = s.proto := rfl

@[simp] theorem respond_bits (s : State) (st : Status) (v : Val) :
    (s.respond st v).bits = s.bits := rfl

@[simp] theorem respond_hiword (s : State) (st : Status) (v : Val) :
    (s.respond st v).hiword = s.hiword := rfl

@[simp] theorem respond_loword (s : State) (st : Status) (v : Val) :
    (s.respond st v).loword = s.loword := rfl

@[simp] theorem respond_addr (s : State) (st : Status) (v : Val) :
    (s.respond st v).addr = s.addr := rfl

@[simp] theorem respond_cmdf (s : State) (st : Status) (v : Val) :
    (s.respond st v).cmdf = s.cmdf := rfl

@[simp] theorem respond_newdg (s : State) (st : Status) (v : Val) :
    (s.respond st v).newdg = s.newdg := rfl

@[simp] theorem respond_acValid (s : State) (st : Status) (v : Val) :
    (s.respond st v).acValid = s.acValid := rfl

@[simp] theorem respond_acCode (s : State) (st : Status) (v : Val) :
    (s.respond st v).acCode = s.acCode := rfl

@[simp] theorem respond_deadline (s : State) (st : Status) (v : Val) :
    (s.respond st v).deadline = s.deadline := rfl

@[simp] theorem respond_markLatch (s : State) (st : Status) (v : Val) :
    (s.respond st v).markLatch = s.markLatch := rfl

@[simp] theorem respond_pressed (s : State) (st : Status) (v : Val) :
    (s.respond st v).pressed = s.pressed := rfl

@[simp] theorem respond_released (s : State) (st : Status) (v : Val) :
    (s.respond st v).released = s.released := rfl

@[simp] theorem respond_faultCause (s : State) (st : Status) (v : Val) :
    (s.respond st v).faultCause = s.faultCause := rfl

@[simp] theorem respond_refused (s : State) (st : Status) (v : Val) :
    (s.respond st v).refused = s.refused := rfl

@[simp] theorem respond_issued (s : State) (st : Status) (v : Val) :
    (s.respond st v).issued = s.issued := rfl

@[simp] theorem respond_now (s : State) (st : Status) (v : Val) :
    (s.respond st v).now = s.now := rfl

@[simp] theorem respond_params (s : State) (st : Status) (v : Val) :
    (s.respond st v).params = s.params := rfl

@[simp] theorem respond_agenda (s : State) (st : Status) (v : Val) :
    (s.respond st v).agenda = s.agenda := rfl

@[simp] theorem respond_choices (s : State) (st : Status) (v : Val) :
    (s.respond st v).choices = s.choices := rfl

@[simp] theorem respond_prio (s : State) (st : Status) (v : Val) :
    (s.respond st v).prio = s.prio := rfl

@[simp] theorem respond_cbq (s : State) (st : Status) (v : Val) :
    (s.respond st v).cbq = s.cbq := rfl

@[simp] theorem refuse_init (s : State) : s.refuse.init = s.init := rfl

@[simp] theorem refuse_conn (s : State) : s.refuse.conn = s.conn := rfl

@[simp] theorem refuse_proto (s : State) : s.refuse.proto = s.proto := rfl

@[simp] theorem refuse_bits (s : State) : s.refuse.bits = s.bits := rfl

@[simp] theorem refuse_hiword (s : State) : s.refuse.hiword = s.hiword := rfl

@[simp] theorem refuse_loword (s : State) : s.refuse.loword = s.loword := rfl

@[simp] theorem refuse_addr (s : State) : s.refuse.addr = s.addr := rfl

@[simp] theorem refuse_cmdf (s : State) : s.refuse.cmdf = s.cmdf := rfl

@[simp] theorem refuse_newdg (s : State) : s.refuse.newdg = s.newdg := rfl

@[simp] theorem refuse_acValid (s : State) : s.refuse.acValid = s.acValid := rfl

@[simp] theorem refuse_acCode (s : State) : s.refuse.acCode = s.acCode := rfl

@[simp] theorem refuse_deadline (s : State) : s.refuse.deadline = s.deadline := rfl

@[simp] theorem refuse_markLatch (s : State) : s.refuse.markLatch = s.markLatch := rfl

@[simp] theorem refuse_pressed (s : State) : s.refuse.pressed = s.pressed := rfl

@[simp] theorem refuse_released (s : State) : s.refuse.released = s.released := rfl

@[simp] theorem refuse_faultCause (s : State) : s.refuse.faultCause = s.faultCause := rfl

@[simp] theorem refuse_issued (s : State) : s.refuse.issued = s.issued := rfl

@[simp] theorem refuse_now (s : State) : s.refuse.now = s.now := rfl

@[simp] theorem refuse_params (s : State) : s.refuse.params = s.params := rfl

@[simp] theorem refuse_agenda (s : State) : s.refuse.agenda = s.agenda := rfl

@[simp] theorem refuse_outputs (s : State) : s.refuse.outputs = s.outputs := rfl

@[simp] theorem refuse_choices (s : State) : s.refuse.choices = s.choices := rfl

@[simp] theorem refuse_prio (s : State) : s.refuse.prio = s.prio := rfl

@[simp] theorem refuse_cbq (s : State) : s.refuse.cbq = s.cbq := rfl

end Sys2Proof.Machine
end

