-- ==== Sys2Proof/Laws/Ops.lean ====
section
/-! SUPPORT. One lemma per shared operation: everything it can do, for later proofs to cite instead of
unfolding it. -/

namespace Sys2Proof.Machine

theorem faulted_eq_false (s : State) : s.faulted = false ↔ s.faultCause = none := by
  cases h : s.faultCause <;> simp [State.faulted, h]

theorem faulted_eq_true (s : State) : s.faulted = true ↔ s.faultCause ≠ none := by
  cases h : s.faultCause <;> simp [State.faulted, h]

theorem idsExhausted_eq_false (s : State) :
    idsExhausted s = false ↔ s.issued.length + 1 < 2 ^ s.params.wId := by
  simp [idsExhausted]

theorem idsExhausted_eq_true (s : State) :
    idsExhausted s = true ↔ 2 ^ s.params.wId ≤ s.issued.length + 1 := by
  simp [idsExhausted]

/-- The drawn id depends on the parameters, ISSUED and the choice counter only. -/
theorem drawnId_congr {s t : State} (hp : t.params = s.params) (hi : t.issued = s.issued)
    (hc : t.choices = s.choices) : drawnId t = drawnId s := by
  simp [drawnId, hp, hi, hc]

@[simp] theorem drawnId_setQueue (s : State) (q : QueueKind) (Q : Queue) :
    drawnId (s.setQueue q Q) = drawnId s := drawnId_congr (by simp) (by simp) (by simp)

/-- A part of a body is done, stopped or refused, and only then the whole is what it is. -/
theorem andThen_eq_done {α β : Type} {b : Body α} {f : α → State → Body β} {x : β} {t : State} :
    b.andThen f = .done x t ↔ ∃ a s, b = .done a s ∧ f a s = .done x t := by
  cases b <;> simp [Body.andThen]

theorem andThen_eq_stopped {α β : Type} {b : Body α} {f : α → State → Body β} {t : State} :
    b.andThen f = .stopped t ↔ b = .stopped t ∨ ∃ a s, b = .done a s ∧ f a s = .stopped t := by
  cases b <;> simp [Body.andThen]

@[simp] theorem andThen_done {α β : Type} (a : α) (s : State) (f : α → State → Body β) :
    (Body.done a s).andThen f = f a s := rfl

@[simp] theorem andThen_stopped {α β : Type} (s : State) (f : α → State → Body β) :
    (Body.stopped s : Body α).andThen f = .stopped s := rfl

@[simp] theorem andThen_refused {α β : Type} (r : RefuseReason) (f : α → State → Body β) :
    (Body.refused r : Body α).andThen f = .refused r := rfl

/-- A fault raised in an unfaulted block records its cause and stops the step. -/
theorem raiseFault_eq {α : Type} (c : FaultCause) (s : State) (h : s.faultCause = none) :
    (raiseFault c s : Body α) = .stopped { s with faultCause := some c } := by
  simp [raiseFault, h]

/-- An append to INS[q] adds at the tail, or faults when the buffer is full. -/
theorem appendIns_eq (q : QueueKind) (j : Job) (s : State) (h : s.faultCause = none) :
    appendIns q j s =
      if (s.queue q).ins.length < s.params.insCap then
        .done () (s.setQueue q { s.queue q with ins := (s.queue q).ins ++ [j] })
      else .stopped { s with faultCause := some .insOverflow } := by
  unfold appendIns
  split <;> split <;> first | rfl | omega | exact raiseFault_eq _ _ h

/-- An append to REM[q] adds at the tail, or faults when the buffer is full. -/
theorem appendRem_eq (q : QueueKind) (id : JobId) (s : State) (h : s.faultCause = none) :
    appendRem q id s =
      if (s.queue q).rem.length < s.params.remCap then
        .done () (s.setQueue q { s.queue q with rem := (s.queue q).rem ++ [id] })
      else .stopped { s with faultCause := some .remOverflow } := by
  unfold appendRem
  split <;> split <;> first | rfl | omega | exact raiseFault_eq _ _ h

/-- The record of a queue after an accepted job: created, the job at the tail of INS, and MINPOLL
shrunk. -/
def withNewJob (Q : Queue) (j : Job) : Queue :=
  { firstUse Q with ins := Q.ins ++ [j], minPoll := shrunkPoll j.mode j.delay Q.minPoll }

theorem shrunkPoll_once (delay : Int) (m : Nat) : shrunkPoll .once delay m = m := by
  simp [shrunkPoll]

/-- First use creates a queue and starts its loop; it writes nothing else. -/
theorem firstUse_cases (Q : Queue) :
    (Q.created = true ∧ firstUse Q = Q) ∨
    (Q.created = false ∧
      firstUse Q = { Q with created := true, phase := .unstarted, k := 0 }) := by
  cases h : Q.created <;> simp [firstUse, h]

@[simp] theorem firstUse_live (Q : Queue) : (firstUse Q).live = Q.live := by
  unfold firstUse; split <;> rfl

@[simp] theorem firstUse_ins (Q : Queue) : (firstUse Q).ins = Q.ins := by
  unfold firstUse; split <;> rfl

@[simp] theorem firstUse_rem (Q : Queue) : (firstUse Q).rem = Q.rem := by
  unfold firstUse; split <;> rfl

@[simp] theorem firstUse_minPoll (Q : Queue) : (firstUse Q).minPoll = Q.minPoll := by
  unfold firstUse; split <;> rfl

@[simp] theorem firstUse_created (Q : Queue) : (firstUse Q).created = true := by
  unfold firstUse; split <;> simp_all

/-- An internal enqueue rejects, refuses for want of a fresh id, faults on a full buffer with the id
drawn and no shrink, or appends the new job (44_scheduler.md R166). -/
theorem internalSchedule_eq (present : Bool) (cb : Callback) (q : QueueKind) (mode : Mode)
    (delay : Int) (s : State) (h : s.faultCause = none) :
    internalSchedule present cb q mode delay s =
      if present = false ∨ delay < 0 then .done 0 s
      else if 2 ^ s.params.wId ≤ s.issued.length + 1 then .refused .idExhausted
      else if (s.queue q).ins.length < s.params.insCap then
        .done (drawnId s)
          (State.setQueue
            { s with issued := s.issued ++ [drawnId s], choices := s.choices + 1 } q
            (withNewJob (s.queue q) (newJob (drawnId s) cb mode delay)))
      else .stopped (State.setQueue
        { s with
          issued := s.issued ++ [drawnId s], choices := s.choices + 1,
          faultCause := some .insOverflow } q (firstUse (s.queue q))) := by
  unfold internalSchedule drawId ensureQueue
  split
  · rfl
  · simp only [idsExhausted, setQueue_params, setQueue_issued, decide_eq_true_eq,
      drawnId_setQueue]
    split
    · rfl
    · rw [andThen_done, appendIns_eq _ _ _ (by simpa using h)]
      cases q <;> simp [State.setQueue, shrinkPoll, withNewJob, newJob, h] <;> split <;> simp

/-- A notification enqueues the first matching binding's callback, if it has one. -/
theorem notifyBinding_cases (bs : List Binding) (c : BitVec 8) (s : State) :
    (notifyBinding bs c s = .done () s ∧
      ∀ b, lookupBinding bs c = some b → b.present = false) ∨
    ∃ b, lookupBinding bs c = some b ∧ b.present = true ∧
      notifyBinding bs c s = enqueueCallback b s := by
  unfold notifyBinding
  cases h : lookupBinding bs c with
  | none => simp
  | some b =>
    cases hp : b.present
    · left
      simp [enqueueCallback, internalSchedule, hp]
    · right
      exact ⟨b, by simp [hp]⟩

/-- Enqueuing a callback refuses, faults or appends its job to INS[CBQ]; MINPOLL is not changed
(43_button_dispatch_repeat_timeout.md R149). -/
theorem enqueueCallback_eq (b : Binding) (s : State) (h : s.faultCause = none)
    (hb : b.present = true) :
    enqueueCallback b s =
      if 2 ^ s.params.wId ≤ s.issued.length + 1 then .refused .idExhausted
      else if s.cbq.ins.length < s.params.insCap then
        .done () { s with
          issued := s.issued ++ [drawnId s]
          choices := s.choices + 1
          cbq := { firstUse s.cbq with
            ins := s.cbq.ins ++ [newJob (drawnId s) (.user b.handle) .once 0] } }
      else .stopped { s with
        issued := s.issued ++ [drawnId s]
        choices := s.choices + 1
        faultCause := some .insOverflow
        cbq := firstUse s.cbq } := by
  rw [enqueueCallback, internalSchedule_eq _ _ _ _ _ _ h]
  by_cases hx : 2 ^ s.params.wId ≤ s.issued.length + 1 <;>
  by_cases hi : s.cbq.ins.length < s.params.insCap <;>
  simp [hb, hx, hi, State.setQueue, withNewJob, shrunkPoll, newJob]

/-- A binding goes to the tail of its kind's list, or the append faults when the list is full. -/
theorem appendBinding_eq (kind : Transition) (b : Binding) (s : State)
    (h : s.faultCause = none) :
    appendBinding kind b s =
      if (s.bindings kind).length < s.params.bindCap then
        .done () (match kind with
          | .pressed => { s with pressed := s.pressed ++ [b] }
          | .released => { s with released := s.released ++ [b] })
      else .stopped { s with faultCause := some .bindOverflow } := by
  unfold appendBinding
  split
  · rw [if_neg (by omega), raiseFault_eq _ _ h]
  · rw [if_pos (by omega)]
    cases kind <;> rfl

/-- A draw refuses exactly when no fresh id is left, and else adds the drawn id to ISSUED. -/
theorem drawId_eq (s : State) :
    drawId s =
      if s.issued.length + 1 < 2 ^ s.params.wId then
        .done (drawnId s)
          { s with issued := s.issued ++ [drawnId s], choices := s.choices + 1 }
      else .refused .idExhausted := by
  unfold drawId
  by_cases h : s.issued.length + 1 < 2 ^ s.params.wId
  · rw [(idsExhausted_eq_false s).2 h, if_pos h]; rfl
  · rw [(idsExhausted_eq_true s).2 (by omega), if_neg h]; rfl

/-- MINPOLL never grows by a shrink, and a shrink keeps it positive (44_scheduler.md R183). -/
theorem shrunkPoll_le (mode : Mode) (delay : Int) (m : Nat) : shrunkPoll mode delay m ≤ m := by
  unfold shrunkPoll
  split <;> omega

theorem shrunkPoll_pos (mode : Mode) (delay : Int) (m : Nat) (h : 1 ≤ m) :
    1 ≤ shrunkPoll mode delay m := by
  unfold shrunkPoll
  split <;> omega

/-- The deadline refresh refuses exactly when the clock cannot hold NOW + 120. -/
theorem refreshDeadline_eq (s : State) :
    refreshDeadline s =
      if s.now + 120 ≤ maxTime s.params then .done () { s with deadline := s.now + 120 }
      else .refused .clockWrap := by
  unfold refreshDeadline
  by_cases h : s.now + 120 ≤ maxTime s.params
  · rw [if_neg (by simp only [Config.repeatTimeoutMs]; omega), if_pos h]
  · rw [if_pos (by simp only [Config.repeatTimeoutMs]; omega), if_neg h]

/-- The repeat-check does nothing, or notifies the active command's release and clears ACTIVE and
BITS. -/
theorem repeatCheck_cases (s : State) :
    ((s.acValid = false ∨ s.now ≤ s.deadline) ∧ repeatCheck s = .done () s) ∨
    (s.acValid = true ∧ s.deadline < s.now ∧
      repeatCheck s = (notifyBinding s.released s.acCode s).andThen fun _ t =>
        .done () { t with acValid := false, acCode := 0, bits := 0 }) := by
  by_cases h : s.acValid = true ∧ s.deadline < s.now
  · right; simp [repeatCheck, h]
  · left
    refine ⟨?_, by simp [repeatCheck, h]⟩
    cases hv : s.acValid <;> simp_all

/-- A countdown keeps everything of a job but `remaining`. -/
theorem jobRun_job (j : Job) (delta : Int) :
    ∃ r, (jobRun j delta).job = { j with remaining := r } := by
  unfold jobRun
  split
  · exact ⟨_, rfl⟩
  · split
    · exact ⟨_, rfl⟩
    · split <;> exact ⟨_, rfl⟩

/-- A job completes only as a Once job that fired (44_scheduler.md R178). -/
theorem jobRun_complete (j : Job) (delta : Int) (h : (jobRun j delta).complete = true) :
    (jobRun j delta).fired = true ∧ j.mode = .once := by
  by_cases h1 : delta ≤ 0
  · simp [jobRun, h1] at h
  · by_cases h2 : 0 < j.remaining - delta
    · simp only [jobRun, h1, h2, if_false, if_true] at h
      cases h
    · cases hm : j.mode <;> simp only [jobRun, h1, h2, hm, if_false] at h ⊢
      · exact ⟨trivial, trivial⟩
      · cases h

@[simp] theorem commit_done (s0 s : State) : commit s0 (.done () s) = s := rfl

@[simp] theorem commit_stopped (s0 s : State) : commit s0 (.stopped s) = s := rfl

@[simp] theorem commit_refused (s0 : State) (r : RefuseReason) :
    commit s0 (.refused r) = s0.refuse := rfl

@[simp] theorem answer_done (s0 s : State) (v : Val) :
    answer s0 (.done v s) = s.respond .ok v := rfl

@[simp] theorem answer_stopped (s0 s : State) : answer s0 (.stopped s) = s.respond .faulted 0 := rfl

theorem command_of_faulted (body : State → Body Val) (s : State) (h : s.faultCause ≠ none) :
    command body s = s.respond .faulted 0 := by
  rw [command, (faulted_eq_true s).2 h]; rfl

theorem command_of_unfaulted (body : State → Body Val) (s : State) (h : s.faultCause = none) :
    command body s = answer s (body s) := by
  rw [command, (faulted_eq_false s).2 h]; rfl

/-- The turn of a loop changes nothing unless the loop exists and the block is not faulted; then it
ends with what the loop's body did. -/
theorem loopStep_cases (q : QueueKind) (s : State) :
    (((s.queue q).created = false ∨ s.faultCause ≠ none) ∧ loopStep q s = s) ∨
    ((s.queue q).created = true ∧ s.faultCause = none ∧
      loopStep q s = commit s (loopBody q s)) := by
  cases hc : (s.queue q).created <;> cases hf : s.faultCause <;>
    simp [loopStep, hc, hf, State.faulted]

/-- A step takes the agenda's first move, or a free one, and performs it. -/
theorem step_cases (s : State) :
    (∃ m ms, s.agenda = m :: ms ∧ step s = perform m { s with agenda := ms }) ∨
    (s.agenda = [] ∧
      step s = perform (Config.freeMove s.choices) { s with choices := s.choices + 1 }) := by
  unfold step takeMove
  cases h : s.agenda with
  | nil => right; simp
  | cons m ms => left; exact ⟨m, ms, rfl, rfl⟩

end Sys2Proof.Machine
end

