-- ==== Sys2Proof/Laws/PerInstr.lean ====
section
/-! SUPPORT. One lemma per instruction: the opcode its encoding carries. -/

namespace Sys2Proof.Laws

/-- The operation code of each instruction (30_encoding.md R81). -/
def opcode : Instr → BitVec 4
  | .nop => 0x0
  | .connect _ _ => 0x1
  | .onButton _ _ _ _ => 0x2
  | .schedule _ _ _ _ _ => 0x3
  | .cancel _ _ => 0x4
  | .queryDatagram => 0x5
  | .readState _ _ => 0x6
  | .cbReturn _ => 0x7

/-- The encoding of an instruction carries its opcode in CMD[63:60]. -/
def EncodeOpcode.Statement (i : Instr) : Prop := opField (encode i) = opcode i

theorem EncodeOpcode.nop : EncodeOpcode.Statement .nop := opField_packCommand ..

theorem EncodeOpcode.connect (pr : Protocol) (pin : BitVec 8) :
    EncodeOpcode.Statement (.connect pr pin) := opField_packCommand ..

theorem EncodeOpcode.onButton (present : Bool) (kind : Transition) (cb : Handle)
    (code : ButtonCode) : EncodeOpcode.Statement (.onButton present kind cb code) :=
  opField_packCommand ..

theorem EncodeOpcode.schedule (present : Bool) (q : QueueKind) (mode : Mode) (cb : Handle)
    (delay : BitVec 32) : EncodeOpcode.Statement (.schedule present q mode cb delay) :=
  opField_packCommand ..

theorem EncodeOpcode.cancel (q : QueueKind) (id : JobId) :
    EncodeOpcode.Statement (.cancel q id) := opField_packCommand ..

theorem EncodeOpcode.queryDatagram : EncodeOpcode.Statement .queryDatagram :=
  opField_packCommand ..

theorem EncodeOpcode.readState (q : QueueKind) (sel : BitVec 4) :
    EncodeOpcode.Statement (.readState q sel) := opField_packCommand ..

theorem EncodeOpcode.cbReturn (q : QueueKind) : EncodeOpcode.Statement (.cbReturn q) :=
  opField_packCommand ..

end Sys2Proof.Laws
end

