-- ==== Sys2Proof/Tests/Slice0.lean ====
section
/-! SUPPORT. Tests: the well-formedness smoke, the decoder on words written out from 30_encoding.md,
one-step tests from 95_test_vectors.md, and for every obligation with hypotheses a witness that meets
them. -/

namespace Sys2Proof.Tests

open Sys2Proof.Machine

/-! ### Helpers -/

/-- The next state of an outcome; every outcome here is one. -/
def nextOf : Host.Outcome State Fault Refusal → State
  | .next t => t
  | _ => State.reset

/-- The last response of a state. -/
def lastResponse (s : State) : Option Response :=
  match s.outputs.getLast? with
  | some (.response r) => some r
  | _ => none

/-- A host callback's job. -/
def userJob (id : JobId) (h : Handle) (mode : Mode) (delay remaining : Int) : Job where
  id := id
  cb := .user h
  delay := delay
  remaining := remaining
  mode := mode

/-- The repeat-check job. -/
def checkJob (id : JobId) (remaining : Int) : Job where
  id := id
  cb := .repeatCheck
  delay := 120
  remaining := remaining
  mode := .repeating

/-- A created queue with the given live list, phase and cursor, at DELTA 100. -/
def queueOf (live : List Job) (phase : Phase) (k : Nat) : Queue where
  created := true
  live := live
  ins := []
  rem := []
  minPoll := 100
  prev := 100
  delta := 100
  phase := phase
  k := k

/-- Small parameters, so that limits are near. -/
def smallParams : Params :=
  { Config.defaults with wTime := 8, wId := 8, insCap := 1, remCap := 1, jobCap := 1, bindCap := 1 }

/-- A connected block at NOW = 100. -/
def connectedState : State :=
  { State.reset with init := true, conn := true, now := 100 }

/-- A faulted block. -/
def faultedState : State := { State.reset with faultCause := some .insOverflow }

/-- A binding with a callback. -/
def bound (code : ButtonCode) (h : Handle) : Binding where
  code := code
  present := true
  handle := h

/-- A block in the middle of its work: a pass of PRIO under way, a callback of CBQ outstanding, a Once
job that has fired, and a job waiting in INS[CBQ]. -/
def busyState : State :=
  { connectedState with
    acValid := true
    acCode := 0x16
    deadline := 50
    pressed := [bound 0x16 1, bound 0x100 9]
    released := [bound 0x16 2]
    issued := [1, 2, 3, 4, 5]
    prio := queueOf [checkJob 1 20, userJob 2 7 .once 10 10] .run 0
    cbq := { queueOf [userJob 3 8 .once 0 (-100), userJob 4 9 .repeating 100 100] .invoke 0 with
             ins := [userJob 5 3 .once 0 0], rem := [3] } }

/-! ### Well-formedness smoke (30_encoding.md R87, R89, 00_scope.md R9) -/

theorem test_wf_refuses_reserved_code :
    (Instr.onButton true .pressed 1 0x101).wellFormed = false ∧
    (Instr.onButton true .pressed 1 0x1FF).wellFormed = false ∧
    (Instr.onButton true .pressed 1 0x100).wellFormed = true := by decide

theorem test_wf_refuses_reserved_selector :
    (Instr.readState .prio 12).wellFormed = false ∧
    (Instr.readState .prio 15).wellFormed = false ∧
    (Instr.readState .cbq 11).wellFormed = true := by decide

theorem test_wf_refuses_long_duration :
    (Move.pulse (2 ^ 32)).legal Config.defaults = false ∧
    (Move.edge .fall (2 ^ 32)).legal Config.defaults = false ∧
    (Move.pulse (2 ^ 32 - 1)).legal Config.defaults = true := by decide

theorem test_wf_refuses_zero_tick :
    (Move.tick 0).legal Config.defaults = false ∧ (Move.tick 1).legal Config.defaults = true := by
  decide

theorem test_wf_refuses_narrow_clock : ¬ { Config.defaults with wTime := 7 }.Legal :=
  fun h => absurd h.wTime_ge (by decide)

theorem test_wf_refuses_no_room : ¬ { Config.defaults with jobCap := 0 }.Legal :=
  fun h => absurd h.jobCap_pos (by decide)

theorem test_wf_accepts_defaults : Config.defaults.Legal := by
  constructor <;> decide

/-! ### The decoder on words written out from 30_encoding.md R80 to R90 -/

theorem test_decode_nop : decode 0x0000000000000000 = .ok .nop := by decide

/-- OP 1, bit 55 set, PIN 0xA5 (R83). -/
theorem test_decode_connect : decode 0x10800000000000A5 = .ok (.connect .keyestudio 0xA5) := by
  decide

/-- OP 2, P 1, K 1 (bit 56), CB 2, CODE 0x016 (R84). -/
theorem test_decode_on_button :
    decode 0x2900000200000016 = .ok (.onButton true .released 2 0x16) := by decide

/-- OP 2, P 0: CB stays in its field (95_test_vectors.md L2.1). -/
theorem test_decode_on_button_absent :
    decode 0x2000000500000016 = .ok (.onButton false .pressed 5 0x16) := by decide

/-- OP 3, P 1, Q 1, M 1, CB 7, DELAY 100 (R85). -/
theorem test_decode_schedule :
    decode 0x3E00000700000064 = .ok (.schedule true .cbq .repeating 7 100) := by decide

/-- DELAY = −2^31 (95_test_vectors.md L2.1). -/
theorem test_decode_schedule_negative :
    decode 0x3A00000380000000 = .ok (.schedule true .prio .repeating 3 0x80000000) ∧
    delayMs 0x80000000 = -2147483648 := by decide

theorem test_decode_cancel : decode 0x4400000000000002 = .ok (.cancel .cbq 2) := by decide

theorem test_decode_query_datagram : decode 0x5000000000000000 = .ok .queryDatagram := by decide

theorem test_decode_read_state : decode 0x640000000000000B = .ok (.readState .cbq 11) := by decide

theorem test_decode_cb_return : decode 0x7400000000000000 = .ok (.cbReturn .cbq) := by decide

/-- The ILLEGAL words of 95_test_vectors.md L2.1. -/
theorem test_decode_illegal :
    decode 0x8000000000000000 = .error .reservedOpcode ∧
    decode 0xF000000000000000 = .error .reservedOpcode ∧
    decode 0x0000000000000001 = .error .reservedBits ∧
    decode 0x1001000000000000 = .error .reservedBits ∧
    decode 0x3D00000100000000 = .error .reservedBits ∧
    decode 0x5000000000000001 = .error .reservedBits ∧
    decode 0x2800000000000101 = .error .reservedCode ∧
    decode 0x28000000000001FF = .error .reservedCode ∧
    decode 0x600000000000000C = .error .reservedSelector ∧
    decode 0x600000000000000F = .error .reservedSelector := by decide

/-- The encoder on rows of 95_test_vectors.md L2.1. -/
theorem test_encode :
    encode (.connect .keyestudio 0) = 0x1080000000000000 ∧
    encode (.onButton true .released 2 0x16) = 0x2900000200000016 ∧
    encode (.schedule true .cbq .once 0xA 0) = 0x3C00000A00000000 ∧
    encode (.schedule true .prio .repeating 5 50) = 0x3A00000500000032 ∧
    encode (.cancel .prio 1) = 0x4000000000000001 ∧
    encode (.readState .cbq 10) = 0x640000000000000A ∧
    encode (.cbReturn .cbq) = 0x7400000000000000 := by decide

/-- A table word runs as the first instruction after reset. -/
theorem test_fetch_runs_nop :
    nextOf (step (State.reset.withFetchWord 64 0)) = nextOf (exec .nop State.reset) := by decide

/-- CONNECT's word runs as the first instruction after reset, whichever id is drawn. -/
theorem test_fetch_runs_connect :
    (nextOf (step (State.reset.withFetchWord 64 0x1000000000000000))).conn = true ∧
    decodeTableWord 64 0x1000000000000000 = some (.connect .nec 0) := by decide

/-! ### One step of each command (95_test_vectors.md L2.6 to L2.8) -/

theorem test_nop_ok :
    lastResponse (nextOf (exec .nop State.reset)) = some { st := .ok, val := 0 } := by decide

theorem test_nop_faulted :
    lastResponse (nextOf (exec .nop faultedState)) = some { st := .faulted, val := 0 } := by decide

/-- The repeat-check job of CONNECT: delay 120, remaining 120, Repeat, on PRIO. -/
theorem test_connect_makes_repeat_check :
    (nextOf (exec (.connect .keyestudio 0) State.reset)).prio.ins.map
      (fun j => (j.cb, j.delay, j.remaining, j.mode)) =
        [(.repeatCheck, 120, 120, .repeating)] := by decide

/-- After CONNECT, READ_STATE 7 reads 0x13. -/
theorem test_connect_status :
    statusVal (nextOf (exec (.connect .nec 0) State.reset)) = 0x13 := by decide

/-- A binding without a callback stores handle 0. -/
theorem test_on_button_absent_handle :
    (nextOf (exec (.onButton false .released 5 0x16) State.reset)).released =
      [{ code := 0x16, present := false, handle := 0 }] := by decide

/-- BIND_CAP = 1: the second binding faults with cause 4. -/
theorem test_on_button_overflow :
    faultCode (nextOf (exec (.onButton true .pressed 2 0x16)
      { State.powerUp smallParams 0 with pressed := [bound 0x16 1] })).faultCause = 4 := by decide

/-- SCHEDULE PRIO, REPEAT, 5, 50 shrinks MINPOLL[PRIO] from 100 to 50. -/
theorem test_schedule_shrinks_poll :
    (nextOf (exec (.schedule true .prio .repeating 5 50) State.reset)).prio.minPoll = 50 ∧
    (nextOf (exec (.schedule true .prio .repeating 5 100) State.reset)).prio.minPoll = 100 := by
  decide

/-- SCHEDULE CBQ, ONCE, 7, -1 responds OK, 0 and creates no queue. -/
theorem test_schedule_rejects_negative :
    nextOf (exec (.schedule true .cbq .once 7 0xFFFFFFFF) State.reset) =
      State.reset.respond .ok 0 := by decide

/-- CANCEL of an unknown id creates the queue and waits in REM. -/
theorem test_cancel_unknown :
    (nextOf (exec (.cancel .cbq 12345) State.reset)).cbq.rem = [12345] ∧
    (nextOf (exec (.cancel .cbq 12345) State.reset)).cbq.created = true := by decide

/-- REM_CAP = 1: the second CANCEL faults with cause 2 and responds FAULTED. -/
theorem test_cancel_overflow :
    lastResponse (nextOf (exec (.cancel .cbq 2)
      { State.powerUp smallParams 0 with cbq := { queueOf [] .head 0 with rem := [1] } })) =
        some { st := .faulted, val := 0 } := by decide

theorem test_query_reads_once :
    (nextOf (exec .queryDatagram { State.reset with newdg := true })).newdg = false ∧
    lastResponse (nextOf (exec .queryDatagram { State.reset with newdg := true })) =
      some { st := .ok, val := 1 } := by decide

/-- PHASE[PRIO] = Invoke, K 2: READ_STATE 11 responds 0x00020003. -/
theorem test_read_state_phase :
    lastResponse (nextOf (exec (.readState .prio 11)
      { State.reset with prio := queueOf [] .invoke 2 })) =
        some { st := .ok, val := 0x00020003 } := by decide

/-- While faulted, READ_STATE 9 reads the cause and READ_STATE 12 responds FAULTED. -/
theorem test_read_state_faulted :
    lastResponse (nextOf (exec (.readState .prio 9) faultedState)) =
      some { st := .ok, val := 1 } ∧
    lastResponse (nextOf (exec (.readState .prio 12) faultedState)) =
      some { st := .faulted, val := 0 } := by decide

/-- PHASE[CBQ] = Invoke, K 0: CB_RETURN CBQ gives K 1, PHASE Run. -/
theorem test_cb_return :
    (nextOf (exec (.cbReturn .cbq) busyState)).cbq.k = 1 ∧
    (nextOf (exec (.cbReturn .cbq) busyState)).cbq.phase = .run := by decide

theorem test_cb_return_illegal :
    lastResponse (nextOf (exec (.cbReturn .prio) busyState)) =
      some { st := .illegal, val := 0 } := by decide

/-! ### One step of the other agents (95_test_vectors.md L1 to L2.8) -/

/-- BITS = 31, HIWORD 0x00FF, LOWORD 0x0B74, bit 1: the freeze and the press of 0x16. -/
theorem test_pulse_freezes_and_presses :
    let t := pulse 2250 { connectedState with bits := 31, hiword := 0x00FF, loword := 0x0B74,
                                              pressed := [bound 0x16 1] }
    t.addr = 0x00FF ∧ t.cmdf = 0x16E9 ∧ t.bits = 0 ∧ t.newdg = true ∧ t.acCode = 0x16 ∧
    t.deadline = 220 ∧ t.cbq.ins.map Job.cb = [.user 1] := by decide

/-- KEYESTUDIO, BITS = 7, bit 1: the snap on the 8th bit. -/
theorem test_pulse_snaps :
    let t := pulse 1600 { connectedState with proto := .keyestudio, bits := 7, hiword := 0x1234 }
    t.bits = 9 ∧ t.hiword = 0x0001 := by decide

/-- MARK_LATCH = 562, EDGE RISE 1688: a 1 bit. -/
theorem test_edge_pairs :
    (edge .rise 1688 { connectedState with markLatch := 562 }).hiword = 0x0001 := by decide

/-- ACTIVE 0x16, DEADLINE 370, NOW 370: no release. -/
theorem test_repeat_check_strict :
    let s := { connectedState with acValid := true, acCode := 0x16, deadline := 370, now := 370 }
    repeatCheck s = .done () s := by decide

/-- Repeat, delay 120, remaining 20, DELTA 100: fires, and remaining becomes 120. -/
theorem test_job_run_repeat :
    jobRun (checkJob 1 20) 100 = { job := checkJob 1 120, fired := true, complete := false } := by
  decide

/-- HEAD: LIVE [A, B, C], INS [D], REM [id(A), 999] gives LIVE [B, C, D]. -/
theorem test_head_drains :
    ((loopStep .cbq { State.reset with cbq := { queueOf [userJob 1 1 .once 0 0,
      userJob 2 2 .once 0 0, userJob 3 3 .once 0 0] .head 0 with
        ins := [userJob 4 4 .once 0 0], rem := [1, 999] } }).cbq.live.map Job.id) = [2, 3, 4] := by
  decide

/-- PRIO runs newest-first: the last job of the live list is invoked. -/
theorem test_prio_newest_first :
    (loopStep .prio { State.reset with prio := queueOf [userJob 1 0xA .once 0 0,
      userJob 2 0xB .once 0 0, userJob 3 0xC .once 0 0] .run 0 }).outputs =
        [.invoke .prio 0xC] := by decide

/-- JOB_CAP = 1: the first HEAD with two jobs faults, LIVE keeps [], the buffers are drained. -/
theorem test_head_overflow :
    let t := loopStep .cbq { State.powerUp smallParams 0 with cbq := { queueOf [] .head 0 with
      prev := 0, ins := [userJob 1 1 .once 0 0, userJob 2 2 .once 0 0] } }
    faultCode t.faultCause = 3 ∧ t.cbq.live = [] ∧ t.cbq.ins = [] ∧ t.cbq.phase = .head := by decide

/-- W_TIME = 8, NOW = 250: TICK 6 refuses. -/
theorem test_tick_wrap :
    tick 6 (State.powerUp smallParams 250) =
      { State.powerUp smallParams 250 with refused := true } := by decide

theorem test_reset_clears_fault :
    (nextOf (perform .reset faultedState)) = State.reset := by decide

/-! ### A witness for every obligation with hypotheses -/

theorem hasCallback_of_any {bs : List Binding} {c : BitVec 8} {h : Handle}
    (hl : (lookupBinding bs c).any (fun b => b.present && b.handle == h) = true) :
    hasCallback bs c h := by
  obtain ⟨b, hb, hp⟩ := Option.any_eq_true _ _ |>.1 hl
  exact ⟨b, hb, by simpa using hp⟩

theorem noCallback_of_all {bs : List Binding} {c : BitVec 8}
    (hl : (lookupBinding bs c).all (fun b => !b.present) = true) : noCallback bs c := by
  intro b hb
  simpa [hb] using hl

/-- A block of W_ID = 8 with `n` ids issued. -/
def issuedState (s : State) (n : Nat) : State :=
  { s with
    params := { Config.defaults with wId := 8 }
    issued := (List.range n).map fun i => BitVec.ofNat 32 (i + 1) }

theorem noFreshId_issuedState (s : State) (n m : Nat) :
    noFreshId (issuedState s n) m ↔ 255 ≤ m := by
  show 2 ^ 8 ≤ m + 1 ↔ 255 ≤ m
  omega

theorem witness_DecodeOfEncode :
    (Instr.onButton true .released 0xFFFF 0x100).wellFormed = true ∧
    (Instr.readState .cbq 11).wellFormed = true ∧
    (Instr.schedule true .cbq .repeating 0xFFFF 0xFFFFFFFF).wellFormed = true := by decide

theorem witness_EncodeOfDecode :
    decode 0x28000000FFFF0100 = .error .reservedBits ∧
    decode 0x2900FFFF00000100 = .ok (.onButton true .released 0xFFFF 0x100) ∧
    decode 0x640000000000000B = .ok (.readState .cbq 11) := by decide

theorem witness_StepRunsDecodedCommand :
    (busyState.withMove (.command 0x7400000000000000)).agenda = .command 0x7400000000000000 :: [] ∧
    decode 0x7400000000000000 = .ok (.cbReturn .cbq) ∧ (Instr.cbReturn .cbq).wellFormed = true := by
  decide

theorem witness_StepAnswersIllegalWord :
    (busyState.withMove (.command 0x2800000000000101)).agenda = .command 0x2800000000000101 :: [] ∧
    decode 0x2800000000000101 = .error .reservedCode := by decide

theorem witness_FaultedCommandsAnswerFaulted :
    faultedState.faultCause ≠ none ∧
    (∀ q sel, Instr.queryDatagram = .readState q sel → 12 ≤ sel.toNat) ∧
    (∀ q sel, Instr.readState .prio 12 = .readState q sel → 12 ≤ sel.toNat) := by
  refine ⟨by decide, (fun _ _ h => by cases h), fun _ _ h => ?_⟩
  cases h
  decide

/-- Room in INS[PRIO], and at INS_CAP none. -/
theorem witness_FirstConnectStartsDetection :
    (State.reset.faultCause = none ∧ State.reset.conn = false ∧
      State.reset.issued.length + 1 < 2 ^ State.reset.params.wId) ∧
    (let s := { State.powerUp smallParams 0 with
                issued := [1], prio := { queueOf [] .head 0 with ins := [userJob 1 1 .once 0 0] } }
     s.faultCause = none ∧ s.conn = false ∧ s.issued.length + 1 < 2 ^ s.params.wId ∧
      ¬ s.prio.ins.length < s.params.insCap) := by decide

theorem witness_SecondConnectDoesNothing :
    busyState.faultCause = none ∧ busyState.conn = true := by decide

/-- The wildcard, the first reserved code, and a list with room and a full one. -/
theorem witness_OnButtonRegistersBinding :
    (State.reset.faultCause = none ∧ ¬ 0x100 < (0x100 : ButtonCode).toNat ∧
      0x100 < (0x101 : ButtonCode).toNat ∧
      State.reset.pressed.length < State.reset.params.bindCap) ∧
    (let s := { State.powerUp smallParams 0 with pressed := [bound 1 1], released := [bound 1 1] }
     s.faultCause = none ∧ ¬ s.pressed.length < s.params.bindCap ∧
      ¬ s.released.length < s.params.bindCap) := by decide

theorem witness_ReservedOperandsIllegal :
    busyState.faultCause = none ∧ 0x100 < (0x101 : ButtonCode).toNat ∧
    12 ≤ (12 : BitVec 4).toNat := by decide

/-- An absent callback, and the delay −1. -/
theorem witness_InvalidScheduleRejected :
    busyState.faultCause = none ∧ (false = false ∨ (10 : BitVec 32).toInt < 0) ∧
    (true = false ∨ (0xFFFFFFFF : BitVec 32).toInt < 0) := by decide

/-- The delays 0 and 2^31 − 1, with room and with a full buffer. -/
theorem witness_ScheduleAppendsJob :
    (busyState.faultCause = none ∧ 0 ≤ (0 : BitVec 32).toInt ∧
      0 ≤ (0x7FFFFFFF : BitVec 32).toInt ∧
      busyState.issued.length + 1 < 2 ^ busyState.params.wId ∧
      (busyState.queue .cbq).ins.length < busyState.params.insCap) ∧
    (let s := { busyState with params := smallParams }
     s.faultCause = none ∧ s.issued.length + 1 < 2 ^ s.params.wId ∧
      ¬ (s.queue .cbq).ins.length < s.params.insCap) := by decide

/-- All 255 ids of W_ID = 8 issued. -/
theorem witness_CommandsRefuseWithoutFreshId :
    let s := { State.powerUp smallParams 0 with
               issued := (List.range 255).map fun n => BitVec.ofNat 32 (n + 1) }
    s.faultCause = none ∧ 2 ^ s.params.wId ≤ s.issued.length + 1 ∧ 0 ≤ (0 : BitVec 32).toInt ∧
      s.conn = false :=
  ⟨rfl, by simp [State.powerUp, smallParams], by decide, rfl⟩

theorem witness_CancelAppendsRemoval :
    (busyState.faultCause = none ∧
      (busyState.queue .cbq).rem.length < busyState.params.remCap) ∧
    ({ busyState with params := smallParams }.faultCause = none ∧
      ¬ (busyState.queue .cbq).rem.length < smallParams.remCap) := by decide

/-- Each band at its first and last duration. -/
theorem witness_ClassifierBands :
    (0 < 1600 ∧ 1599 < 1600) ∧ (1600 ≤ 1600 ∧ 2699 < 2700) ∧ (2700 ≤ 2700 ∧ 12499 < 12500) ∧
    (12500 ≤ 12500 ∧ 14499 < 14500) ∧ 14500 ≤ 14500 := by decide

/-- Each clause at a boundary count: 0 and 7, 8 and 15, 16 and 30, 31. -/
theorem witness_AppendBitSteps :
    let s (n : BitVec 6) (pr : Protocol) := { connectedState with bits := n, proto := pr }
    ((s 7 .nec).bits.toNat = 7 ∧ 7 + 1 ≤ 8 ∧ ¬((s 7 .nec).proto = .keyestudio ∧ true = true)) ∧
    ((s 7 .keyestudio).bits.toNat = 7 ∧ (s 7 .keyestudio).proto = .keyestudio) ∧
    ((s 8 .keyestudio).bits.toNat = 8 ∧ 8 < 8 + 1 ∧ 8 + 1 ≤ 16) ∧
    ((s 15 .nec).bits.toNat = 15 ∧ 15 + 1 ≤ 16) ∧
    ((s 16 .nec).bits.toNat = 16 ∧ 16 < 16 + 1) ∧
    ((s 30 .nec).bits.toNat = 30 ∧ 30 + 1 < 32) ∧
    ((s 31 .nec).bits.toNat = 31 ∧ 31 + 1 = 32) := by decide

theorem witness_ThirtyTwoBitsMakeDatagram :
    (List.replicate 32 true).length = 32 ∧ connectedState.bits = 0 ∧ connectedState.proto = .nec := by
  decide

theorem witness_KeyestudioResynchronises :
    let s := { connectedState with proto := .keyestudio }
    0 < 8 ∧ 7 < 8 ∧ (List.replicate 23 true).length = 23 ∧ s.bits = 0 ∧ s.proto = .keyestudio := by
  decide

theorem witness_DisabledPulsePathIgnoresEvents :
    (State.reset.conn = false ∧
      (State.reset.withMove (.pulse 2700)).agenda = .pulse 2700 :: [] ∧
      (State.reset.withMove (.edge .fall 562)).agenda = .edge .fall 562 :: []) ∧
    faultedState.faultCause ≠ none := by decide

/-- A bit, a start marker and noise; and a repeat marker and the 32nd bit, which are dispatched. -/
theorem witness_IncompletePulseDispatchesNothing :
    connectedState.conn = true ∧ connectedState.faultCause = none ∧
    (assemble (classify 1599) connectedState).1 = .incomplete ∧
    (assemble (classify 12500) connectedState).1 = .incomplete ∧
    (assemble (classify 14500) connectedState).1 = .incomplete ∧
    (assemble (classify 2700) connectedState).1 ≠ .incomplete ∧
    (assemble (classify 2699) { connectedState with bits := 31 }).1 ≠ .incomplete := by decide

theorem witness_EdgesPairIntoPulses :
    (connectedState.conn = true ∧ connectedState.faultCause = none ∧
      connectedState.params.markLevel = .high) ∧
    (let s := { connectedState with params := { Config.defaults with markLevel := .low } }
     s.conn = true ∧ s.faultCause = none ∧ s.params.markLevel = .low) := by decide

/-- The repeat band's ends and the longest 32nd bit; NOW at the last value with a deadline, and one past
it. -/
theorem witness_RepeatPulseRefreshesDeadline :
    let s (t : Nat) := { connectedState with params := smallParams, now := t, bits := 31 }
    2700 ≤ 2700 ∧ 12499 < 12500 ∧ (s 135).conn = true ∧ (s 135).faultCause = none ∧
    (s 135).now + 120 ≤ 2 ^ (s 135).params.wTime - 1 ∧
    2 ^ (s 136).params.wTime - 1 < (s 136).now + 120 ∧
    2699 < 2700 ∧ (s 136).bits.toNat = 31 := by decide

/-- A code found by its own binding, one found by the wildcard, and an empty list. -/
theorem witness_LookupIsFirstMatch :
    lookupBinding [bound 0x17 5, bound 0x16 1, bound 0x100 9] 0x16 = some (bound 0x16 1) ∧
    lookupBinding [bound 0x17 5, bound 0x100 9, bound 0x16 1] 0x16 = some (bound 0x100 9) ∧
    lookupBinding [] 0x16 = none := by decide

theorem witness_UnchangedCommandEmitsNothing :
    let s := { busyState with cmdf := 0x16E9 }
    s.acValid = true ∧ s.acCode.toNat = s.cmdf.toNat / 256 ∧
    s.now + 120 ≤ 2 ^ s.params.wTime - 1 := by decide

/-- A first press with nothing bound, with an absent callback bound, with a callback, and with a callback
but no id left. -/
theorem witness_FirstPressActivatesCommand :
    let s := { connectedState with cmdf := 0x16E9, pressed := [bound 0x16 1] }
    s.acValid = false ∧ (0x16 : BitVec 8).toNat = s.cmdf.toNat / 256 ∧
    s.now + 120 ≤ 2 ^ s.params.wTime - 1 ∧ noCallback [] 0x16 ∧
    noCallback [{ code := 0x16, present := false, handle := 0 }, bound 0x16 1] 0x16 ∧
    hasCallback s.pressed 0x16 1 ∧ ¬ noFreshId s s.issued.length ∧
    s.cbq.ins.length < s.params.insCap ∧ noFreshId (issuedState s 255) 255 :=
  ⟨rfl, by decide, by decide, noCallback_of_all (by decide), noCallback_of_all (by decide),
    hasCallback_of_any (by decide), by unfold noFreshId; decide, by decide,
    (noFreshId_issuedState _ _ _).2 (by decide)⟩

/-- Each mix of callbacks; 255 ids issued, 254 (one left) and 253; INS[CBQ] full, with room for one, and
with room for two. -/
theorem witness_ReleasePrecedesPress :
    let s := { busyState with cmdf := 0x18E7 }
    let small (n : Nat) := { s with params := { Config.defaults with insCap := n } }
    s.acValid = true ∧ (0x18 : BitVec 8).toNat = s.cmdf.toNat / 256 ∧ s.acCode ≠ 0x18 ∧
    s.now + 120 ≤ 2 ^ s.params.wTime - 1 ∧
    hasCallback s.released s.acCode 2 ∧ hasCallback s.pressed 0x18 9 ∧
    noCallback [] s.acCode ∧ noCallback [bound 0x17 1] 0x18 ∧
    noFreshId (issuedState s 255) 255 ∧
    ¬ noFreshId (issuedState s 254) 254 ∧ noFreshId (issuedState s 254) (254 + 1) ∧
    ¬ noFreshId (issuedState s 253) (253 + 1) ∧
    (small 1).params.insCap ≤ (small 1).cbq.ins.length ∧
    (small 2).cbq.ins.length < (small 2).params.insCap ∧
    ¬ (small 2).cbq.ins.length + 1 < (small 2).params.insCap ∧
    (small 3).cbq.ins.length + 1 < (small 3).params.insCap :=
  ⟨rfl, by decide, by decide, by decide, hasCallback_of_any (by decide),
    hasCallback_of_any (by decide), noCallback_of_all (by decide), noCallback_of_all (by decide),
    (noFreshId_issuedState _ _ _).2 (by decide), mt (noFreshId_issuedState _ _ _).1 (by decide),
    (noFreshId_issuedState _ _ _).2 (by decide), mt (noFreshId_issuedState _ _ _).1 (by decide),
    by decide, by decide, by decide, by decide⟩

theorem witness_PressFaultsOnFullInsertBuffer :
    let s := { busyState with params := smallParams, acValid := false, acCode := 0, cmdf := 0x16E9 }
    s.faultCause = none ∧ s.acValid = false ∧ (0x16 : BitVec 8).toNat = s.cmdf.toNat / 256 ∧
    s.now + 120 ≤ 2 ^ s.params.wTime - 1 ∧
    lookupBinding s.pressed 0x16 = some (bound 0x16 1) ∧ (bound 0x16 1).present = true ∧
    s.issued.length + 1 < 2 ^ s.params.wId ∧ s.params.insCap ≤ s.cbq.ins.length := by decide

/-- At NOW = DEADLINE, and one past it with no binding, with a callback and room, with a callback and a
full buffer, and with a callback and no id left. -/
theorem witness_RepeatCheckReleasesAfterDeadline :
    let s (d : Nat) := { busyState with deadline := d }
    (s 100).acValid = true ∧ (s 100).now ≤ (s 100).deadline ∧ (s 99).deadline < (s 99).now ∧
    noCallback [] (s 99).acCode ∧ hasCallback (s 99).released (s 99).acCode 2 ∧
    ¬ noFreshId (s 99) (s 99).issued.length ∧ (s 99).cbq.ins.length < (s 99).params.insCap ∧
    smallParams.insCap ≤ (s 99).cbq.ins.length ∧ noFreshId (issuedState (s 99) 255) 255 :=
  ⟨rfl, by decide, by decide, noCallback_of_all (by decide), hasCallback_of_any (by decide),
    by unfold noFreshId; decide, by decide, by decide, (noFreshId_issuedState _ _ _).2 (by decide)⟩

/-- The last fresh id of W_ID = 8. -/
theorem witness_DrawnIdIsFresh :
    let s := { State.powerUp smallParams 0 with
               issued := (List.range 254).map fun n => BitVec.ofNat 32 (n + 1) }
    s.params.wId ≤ 32 ∧ s.issued.length + 1 < 2 ^ s.params.wId :=
  ⟨by decide, by simp [State.powerUp, smallParams]⟩

theorem witness_EveryFreshIdAdmitted :
    (255 : JobId) ≠ 0 ∧ (255 : JobId) ∉ ([1, 2] : List JobId) ∧ (255 : JobId).toNat < 2 ^ 8 := by
  decide

/-- No time; one short of firing; exactly at zero, in both modes. -/
theorem witness_JobRunCases :
    ((0 : Int) ≤ 0) ∧ ((0 : Int) < 99 ∧ (0 : Int) < (userJob 1 1 .once 100 100).remaining - 99) ∧
    ((0 : Int) < 100 ∧ (userJob 1 1 .once 100 100).remaining - 100 ≤ 0 ∧
      (userJob 1 1 .once 100 100).mode = .once) ∧
    ((checkJob 1 100).remaining - 100 ≤ 0 ∧ (checkJob 1 100).mode = .repeating) := by decide

theorem witness_StartRecordsClock :
    let s := { connectedState with prio := queueOf [] .unstarted 0 }
    (s.queue .prio).created = true ∧ s.faultCause = none ∧
    (s.queue .prio).phase = .unstarted := by decide

/-- From Head, and from a sleep that ends exactly now. -/
theorem witness_HeadDrainsBuffers :
    headEnabled .prio { connectedState with prio := queueOf [checkJob 1 20] .head 0 } ∧
    headEnabled .cbq { connectedState with cbq := queueOf [userJob 2 1 .once 0 0] (.sleep 100) 1 } :=
  ⟨⟨rfl, rfl, .inl rfl⟩, ⟨rfl, rfl, .inr ⟨100, rfl, by decide⟩⟩⟩

/-- A pass of no time, and a countdown that ends at 1. -/
theorem witness_RunJobCountsDown :
    (let s := { connectedState with prio := { queueOf [checkJob 1 20] .run 0 with delta := 0 } }
     runsJob .prio 0 (checkJob 1 20) s ∧ (s.queue .prio).delta ≤ 0) ∧
    (let s := { connectedState with
                cbq := queueOf [userJob 2 1 .once 0 0, userJob 3 1 .once 101 101] .run 1 }
     runsJob .cbq 1 (userJob 3 1 .once 101 101) s ∧
      0 < (userJob 3 1 .once 101 101).remaining - (s.queue .cbq).delta) :=
  ⟨⟨⟨rfl, rfl, rfl, by decide, rfl, rfl⟩, by decide⟩,
    ⟨⟨rfl, rfl, rfl, by decide, rfl, rfl⟩, by decide⟩⟩

/-- A countdown that ends exactly at 0: newest-first on PRIO, in both modes. -/
theorem witness_RunJobInvokesCallback :
    (runsJob .prio 1 (userJob 2 7 .once 10 10) busyState ∧ 0 < (busyState.queue .prio).delta ∧
      (userJob 2 7 .once 10 10).remaining - (busyState.queue .prio).delta ≤ 0 ∧
      (userJob 2 7 .once 10 10).cb = .user 7 ∧
      (busyState.queue .prio).rem.length < busyState.params.remCap) ∧
    (let s := { connectedState with cbq := queueOf [userJob 4 9 .repeating 100 100] .run 0 }
     runsJob .cbq 0 (userJob 4 9 .repeating 100 100) s ∧ 0 < (s.queue .cbq).delta ∧
      (userJob 4 9 .repeating 100 100).remaining - (s.queue .cbq).delta ≤ 0 ∧
      (userJob 4 9 .repeating 100 100).mode = .repeating) :=
  ⟨⟨⟨rfl, rfl, rfl, by decide, rfl, rfl⟩, by decide, by decide, rfl, by decide⟩,
    ⟨⟨rfl, rfl, rfl, by decide, rfl, rfl⟩, by decide, by decide, rfl⟩⟩

theorem witness_RunJobFaultsOnFullRemovalBuffer :
    let s := { connectedState with
               params := smallParams
               prio := { queueOf [userJob 2 7 .once 10 10] .run 0 with rem := [9] } }
    runsJob .prio 0 (userJob 2 7 .once 10 10) s ∧ 0 < (s.queue .prio).delta ∧
    (userJob 2 7 .once 10 10).remaining - (s.queue .prio).delta ≤ 0 ∧
    (userJob 2 7 .once 10 10).mode = .once ∧ s.params.remCap ≤ (s.queue .prio).rem.length :=
  ⟨⟨rfl, rfl, rfl, by decide, rfl, rfl⟩, by decide, by decide, rfl, by decide⟩

/-- At NOW = DEADLINE, and one past it with no matching binding, with a callback, with a callback and a
full INS[CBQ], and with a callback and no id left. -/
theorem witness_RunJobRunsRepeatCheck :
    let s (d : Nat) := { connectedState with
      acValid := true, acCode := 0x16, deadline := d, released := [bound 0x16 2]
      prio := queueOf [checkJob 1 100] .run 0 }
    runsJob .prio 0 (checkJob 1 100) (s 100) ∧ runsJob .prio 0 (checkJob 1 100) (s 99) ∧
    0 < ((s 99).queue .prio).delta ∧
    (checkJob 1 100).remaining - ((s 99).queue .prio).delta ≤ 0 ∧
    (checkJob 1 100).mode = .repeating ∧ (checkJob 1 100).cb = .repeatCheck ∧
    (s 100).now ≤ (s 100).deadline ∧ (s 99).acValid = true ∧ (s 99).deadline < (s 99).now ∧
    noCallback [] (s 99).acCode ∧ hasCallback (s 99).released (s 99).acCode 2 ∧
    ¬ noFreshId (s 99) (s 99).issued.length ∧ (s 99).cbq.ins.length < (s 99).params.insCap ∧
    (let full := { s 99 with params := { Config.defaults with insCap := 1 }
                             cbq := { queueOf [] .head 0 with ins := [userJob 5 3 .once 0 0] } }
     runsJob .prio 0 (checkJob 1 100) full ∧ full.params.insCap ≤ full.cbq.ins.length) ∧
    runsJob .prio 0 (checkJob 1 100) (issuedState (s 99) 255) ∧
    noFreshId (issuedState (s 99) 255) 255 :=
  ⟨⟨rfl, rfl, rfl, by decide, rfl, rfl⟩, ⟨rfl, rfl, rfl, by decide, rfl, rfl⟩, by decide,
    by decide, rfl, rfl, by decide, rfl, by decide, noCallback_of_all (by decide),
    hasCallback_of_any (by decide), by unfold noFreshId; decide, by decide,
    ⟨⟨rfl, rfl, rfl, by decide, rfl, rfl⟩, by decide⟩,
    ⟨rfl, rfl, rfl, by decide, rfl, rfl⟩, (noFreshId_issuedState _ _ _).2 (by decide)⟩

theorem witness_EndSleepsForPollInterval :
    let s := { connectedState with cbq := queueOf [userJob 2 1 .once 0 0] .run 1 }
    (s.queue .cbq).created = true ∧ s.faultCause = none ∧ (s.queue .cbq).phase = .run ∧
    (s.queue .cbq).k = (s.queue .cbq).live.length := by decide

/-- Each way to be blocked, the sleep one millisecond short. -/
theorem witness_BlockedLoopDoesNothing :
    (State.reset.queue .prio).created = false ∧ faultedState.faultCause ≠ none ∧
    (busyState.queue .cbq).phase = .invoke ∧
    (let s := { connectedState with cbq := queueOf [] (.sleep 101) 0 }
     (s.queue .cbq).phase = .sleep 101 ∧ (s.now : Int) < 101) := by decide

theorem witness_ZeroDeltaPassOnlySleeps :
    let s := { connectedState with
               prio := { queueOf [checkJob 1 20, userJob 2 7 .once 0 0] .run 0 with delta := 0 } }
    (s.queue .prio).created = true ∧ s.faultCause = none ∧ (s.queue .prio).phase = .run ∧
    (s.queue .prio).k = 0 ∧ (s.queue .prio).delta = 0 := by decide

/-- TICK to the clock's last value, and one past it. -/
theorem witness_TickAdvancesClock :
    let s := State.powerUp smallParams 250
    (s.withMove (.tick 5)).agenda = .tick 5 :: [] ∧ 1 ≤ 5 ∧
    s.now + 5 ≤ 2 ^ s.params.wTime - 1 ∧ (s.withMove (.tick 6)).agenda = .tick 6 :: [] ∧
    2 ^ s.params.wTime - 1 < s.now + 6 := by decide

theorem witness_ResetRestoresResetValues :
    (busyState.withMove .reset).agenda = .reset :: [] := by decide

theorem smallParams_legal : smallParams.Legal := by constructor <;> decide

theorem witness_PowerUpMeetsInvariants :
    Config.defaults.Legal ∧ smallParams.Legal ∧ 255 < 2 ^ smallParams.wTime :=
  ⟨test_wf_accepts_defaults, smallParams_legal, by decide⟩

/-- The busy state meets the ranges and limits. -/
theorem busyState_bounds : Bounds busyState where
  params := test_wf_accepts_defaults
  now_lt := by decide
  deadline_lt := by decide
  markLatch_lt := by decide
  bits_le := by decide
  active_none := by decide
  conn_init := by decide
  pressed := by constructor <;> decide
  released := by constructor <;> decide
  prio := by constructor <;> decide
  cbq := by constructor <;> decide
  repeatChecks := by constructor <;> decide

theorem busyState_ids : Ids busyState where
  issued_nodup := by decide
  issued_legal := by
    intro x hx
    have hcases : x = 1 ∨ x = 2 ∨ x = 3 ∨ x = 4 ∨ x = 5 := by simpa [busyState] using hx
    rcases hcases with rfl | rfl | rfl | rfl | rfl <;> decide
  jobs_nodup := by decide
  jobs_issued := by simp [jobIds, busyState, queueOf, userJob, checkJob]

theorem busyState_countdowns : Countdowns busyState where
  prio := fun _ =>
    { pending := by
        intro p _ hp j hj
        have hp2 : p < 2 := hp
        interval_cases p <;> · cases hj; decide
      overdue := by decide
      fired := fun _ p h => absurd h (Nat.not_lt_zero p) }
  cbq := fun _ =>
    { pending := by
        intro p h hp j hj
        have hp2 : p < 2 := hp
        have h1 : 1 ≤ p := h
        interval_cases p
        cases hj
        decide
      overdue := by decide
      fired := by
        intro _ p h _ j hj
        have h1 : p < 1 := h
        interval_cases p
        cases hj
        decide }
  remaining_ge := by decide

/-- A state that meets all three invariants, mid-pass, whose next move is the given one. -/
theorem busyState_withMove (m : Move) :
    Bounds (busyState.withMove m) ∧ Ids (busyState.withMove m) ∧
    Countdowns (busyState.withMove m) := by
  obtain ⟨h1, h2, h3, h4, h5, h6, h7, h8, h9, h10, h11, ⟨r1, r2, r3, r4⟩⟩ := busyState_bounds
  obtain ⟨i1, i2, i3, i4⟩ := busyState_ids
  obtain ⟨c1, c2, c3⟩ := busyState_countdowns
  exact ⟨⟨h1, h2, h3, h4, h5, h6, h7, h8, h9, h10, h11, ⟨r1, r2, r3, r4⟩⟩, ⟨i1, i2, i3, i4⟩,
    ⟨c1, c2, c3⟩⟩

theorem witness_StepKeepsBounds : ∃ t,
    Bounds (busyState.withMove (.loop .prio)) ∧
    step (busyState.withMove (.loop .prio)) = .next t ∧ t.prio.phase = .invoke :=
  ⟨_, (busyState_withMove _).1, rfl, rfl⟩

theorem witness_StepKeepsIdentifiersUnique : ∃ t,
    Bounds (busyState.withMove (.command 0x3A00000500000032)) ∧
    Ids (busyState.withMove (.command 0x3A00000500000032)) ∧
    step (busyState.withMove (.command 0x3A00000500000032)) = .next t ∧ t.issued.length = 6 :=
  ⟨_, (busyState_withMove _).1, (busyState_withMove _).2.1, rfl, rfl⟩

theorem witness_StepKeepsCountdowns : ∃ t,
    Bounds (busyState.withMove (.loop .prio)) ∧ Ids (busyState.withMove (.loop .prio)) ∧
    Countdowns (busyState.withMove (.loop .prio)) ∧
    step (busyState.withMove (.loop .prio)) = .next t ∧ t.prio.rem = [2] :=
  ⟨_, (busyState_withMove _).1, (busyState_withMove _).2.1, (busyState_withMove _).2.2, rfl, rfl⟩

/-- A callback's return, the END and a HEAD: job 3 was in REM[CBQ] and is gone, and has no turn left; job
2, cancelled while its turn is still to come, fires once. -/
theorem witness_CancelledJobDisappears :
    let ms := [Move.command 0x7400000000000000, .loop .cbq, .loop .cbq, .tick 100, .loop .cbq]
    let s := busyState.withMove (.command 0x4000000000000002)
    let t := afterMove (.command 0x4000000000000002) busyState
    Bounds busyState ∧ Ids busyState ∧ 3 ∈ (busyState.queue .cbq).rem ∧ 3 ∈ busyState.issued ∧
    Move.reset ∉ ms ∧ (afterMoves ms busyState).faultCause = none ∧
    (afterMoves ms busyState).refused = false ∧
    (∀ p, nextPosition (busyState.queue .cbq) ≤ p → p < (busyState.queue .cbq).live.length →
      ∀ j ∈ (busyState.queue .cbq).live[jobIndex .cbq (busyState.queue .cbq).live.length p]?,
        j.id ≠ 3) ∧
    step s = .next t ∧ 2 ∈ (t.queue .prio).rem ∧ 2 ∈ t.issued ∧
    firings .prio 2 [.loop .prio, .loop .prio] t = 1 := by
  refine ⟨busyState_bounds, busyState_ids, by decide, by decide, by decide, by decide, by decide,
    fun p h hp j hj => ?_, rfl, by decide, by decide, by decide⟩
  have hp2 : p < 2 := hp
  have h1 : 1 ≤ p := h
  interval_cases p
  cases hj
  decide

theorem witness_ClockNeverDecreases : ∃ t,
    step (busyState.withMove (.tick 7)) = .next t ∧ t.now = 107 := ⟨_, rfl, rfl⟩

theorem witness_PollIntervalNeverGrows : ∃ t,
    step (busyState.withMove (.command 0x3A00000500000032)) = .next t ∧
    (takeMove (busyState.withMove (.command 0x3A00000500000032))).1 ≠ .reset ∧
    (t.queue .prio).minPoll = 50 ∧ 1 ≤ (busyState.queue .prio).minPoll ∧
    (takeMove (busyState.withMove .reset)).1 = .reset :=
  ⟨_, rfl, by decide, rfl, by decide, rfl⟩

theorem witness_FaultedBlockStops : ∃ t,
    (faultedState.withMove (.pulse 2700)).faultCause ≠ none ∧
    step (faultedState.withMove (.pulse 2700)) = .next t ∧
    (takeMove (faultedState.withMove (.pulse 2700))).1 ≠ .reset :=
  ⟨_, by decide, rfl, by decide⟩

/-- A turn of the other loop, and a turn of q's own loop in a pass, where no HEAD is enabled. -/
theorem witness_OnlyOwnLoopWritesLiveList : ∃ t,
    step (busyState.withMove (.loop .prio)) = .next t ∧
    (takeMove (busyState.withMove (.loop .prio))).1 ≠ .reset ∧
    (takeMove (busyState.withMove (.loop .prio))).1 ≠ .loop .cbq ∧
    (takeMove (busyState.withMove (.loop .prio))).1 = .loop .prio ∧
    ¬ headEnabled .prio (busyState.withMove (.loop .prio)) := by
  refine ⟨_, rfl, by decide, by decide, rfl, ?_⟩
  rintro ⟨_, _, h | ⟨w, h, _⟩⟩ <;> cases h

/-- A TICK is neither a pulse, an edge, a loop's turn nor a command, and a QUERY_DATAGRAM is neither a
CONNECT nor an ON_BUTTON. -/
theorem witness_DecoderRecordOwnership : ∃ t,
    let s := busyState.withMove (.tick 7)
    Bounds s ∧ step s = .next t ∧ (takeMove s).1 ≠ .reset ∧
    ((∀ d, (takeMove s).1 ≠ .pulse d) ∧ ∀ e d, (takeMove s).1 ≠ .edge e d) ∧
    (takeMove s).1 ≠ .loop .prio ∧ moveInstr (takeMove s).1 ≠ some .queryDatagram ∧
    (∀ pr pin, moveInstr (takeMove s).1 ≠ some (.connect pr pin)) ∧
    (∀ p k cb code, moveInstr (takeMove s).1 ≠ some (.onButton p k cb code)) ∧
    moveInstr (.command 0x5000000000000000) = some .queryDatagram :=
  ⟨_, (busyState_withMove _).1, rfl, by decide, ⟨by simp [takeMove, State.withMove],
    by simp [takeMove, State.withMove]⟩, by decide, by decide, by simp [takeMove, State.withMove,
    moveInstr], by simp [takeMove, State.withMove, moveInstr], by decide⟩

/-- Another command, CB_RETURN of the other queue, while CBQ waits. -/
theorem witness_InvokedLoopWaitsForReturn : ∃ t,
    let s := busyState.withMove (.command 0x7000000000000000)
    Bounds s ∧ (s.queue .cbq).phase = .invoke ∧ step s = .next t ∧ (takeMove s).1 ≠ .reset ∧
    (∀ w, (takeMove s).1 = .command w → decode w ≠ .ok (.cbReturn .cbq)) := by
  refine ⟨_, (busyState_withMove _).1, rfl, rfl, by decide, ?_⟩
  intro w h
  cases h
  decide

end Sys2Proof.Tests
end

section
/-! PROOFS. The state's own invariants (10_state.md): how a body can end, one rule per shared
operation, which agent writes what, and the ranges and limits that every step keeps. -/

namespace Sys2Proof.Machine

/-! ### How a body ends -/

/-- Every state that a body can leave behind, done or stopped by a fault, meets `P`; a refusal
leaves none (60_exceptions.md R233, R236). -/
def Body.Ends {α : Type} (P : State → Prop) : Body α → Prop
  | .done _ s => P s
  | .stopped s => P s
  | .refused _ => True

variable {α β : Type} {P R : State → Prop}

@[simp] theorem ends_done (a : α) (s : State) : (Body.done a s).Ends P ↔ P s := Iff.rfl

@[simp] theorem ends_stopped (s : State) : (Body.stopped s : Body α).Ends P ↔ P s := Iff.rfl

@[simp] theorem ends_refused (r : RefuseReason) : (Body.refused r : Body α).Ends P := trivial

/-- The rule of sequence: the second part starts where the first is done, and a fault in the first
ends the whole. -/
theorem Body.Ends.andThen {b : Body α} {f : α → State → Body β} (hb : b.Ends P)
    (hstop : ∀ s, P s → R s) (hf : ∀ a s, P s → (f a s).Ends R) : (b.andThen f).Ends R := by
  cases b with
  | done a s => exact hf a s hb
  | stopped s => exact hstop s hb
  | refused r => trivial

theorem Body.Ends.mono {b : Body α} (hb : b.Ends P) (h : ∀ s, P s → R s) : b.Ends R := by
  cases b with
  | done a s => exact h s hb
  | stopped s => exact h s hb
  | refused r => trivial

theorem Body.Ends.and {b : Body α} (hp : b.Ends P) (hr : b.Ends R) :
    b.Ends fun s => P s ∧ R s := by
  cases b with
  | done a s => exact ⟨hp, hr⟩
  | stopped s => exact ⟨hp, hr⟩
  | refused r => trivial

/-! ### The part of the state that the scheduler does not own -/

/-- The flags, the decoder record, the binding lists, NOW and the parameters; everything that the
scheduler or the run itself owns is erased. -/
def State.record (s : State) : State :=
  { s with
    prio := Queue.initial s.params, cbq := Queue.initial s.params, faultCause := none,
    refused := false, issued := [], agenda := [], outputs := [], choices := 0 }

@[simp] theorem record_setQueue (s : State) (q : QueueKind) (Q : Queue) :
    (s.setQueue q Q).record = s.record := by cases q <;> rfl

/-- `t` differs from `s` at most in FAULT_CAUSE, REFUSED, ISSUED and the model's own fields. -/
structure BookkeepingOnly (s t : State) : Prop where
  record : t.record = s.record
  queue : ∀ q, t.queue q = s.queue q

theorem BookkeepingOnly.refl (s : State) : BookkeepingOnly s s := ⟨rfl, fun _ => rfl⟩

theorem BookkeepingOnly.trans {s t u : State} (h : BookkeepingOnly s t)
    (h' : BookkeepingOnly t u) : BookkeepingOnly s u :=
  ⟨h'.record.trans h.record, fun q => (h'.queue q).trans (h.queue q)⟩

theorem BookkeepingOnly.setQueue {s t : State} (h : BookkeepingOnly s t) (q : QueueKind)
    (Q : Queue) : BookkeepingOnly (s.setQueue q Q) (t.setQueue q Q) where
  record := by simpa using h.record
  queue r := by
    by_cases hr : r = q
    · simp [hr]
    · rw [queue_setQueue_of_ne _ _ _ _ hr, queue_setQueue_of_ne _ _ _ _ hr, h.queue r]

theorem BookkeepingOnly.params {s t : State} (h : BookkeepingOnly s t) : t.params = s.params :=
  (congrArg State.params h.record :)

/-- `P` says nothing of FAULT_CAUSE, REFUSED, ISSUED and the model's own fields. -/
def IgnoresBookkeeping (P : State → Prop) : Prop :=
  ∀ s t : State, BookkeepingOnly s t → P s → P t

theorem ignoresBookkeeping_record (p : State → Prop) : IgnoresBookkeeping fun t => p t.record := by
  intro s t h hs
  simpa only [h.record] using hs

/-! ### One rule per shared operation -/

theorem raiseFault_ends (hP : IgnoresBookkeeping P) {s : State} (hs : P s) (c : FaultCause) :
    (raiseFault c s : Body α).Ends P := by
  unfold raiseFault
  split
  · exact hP s _ ⟨rfl, fun _ => rfl⟩ hs
  · exact hs

theorem drawId_ends (hP : IgnoresBookkeeping P) {s : State} (hs : P s) : (drawId s).Ends P := by
  rw [drawId_eq]
  split
  · exact hP s _ ⟨rfl, fun _ => rfl⟩ hs
  · trivial

theorem appendRem_ends (hP : IgnoresBookkeeping P) {q : QueueKind} {id : JobId} {s : State}
    (hs : P s)
    (hadd : (s.queue q).rem.length < s.params.remCap →
      P (s.setQueue q { s.queue q with rem := (s.queue q).rem ++ [id] })) :
    (appendRem q id s).Ends P := by
  unfold appendRem
  split
  · exact raiseFault_ends hP hs _
  · exact hadd (by omega)

/-- An internal enqueue leaves the state as it was, the queue in use, or the new job in INS[q],
up to the fault cause and the drawn id (44_scheduler.md R166). -/
theorem internalSchedule_ends (hP : IgnoresBookkeeping P) {present : Bool} {cb : Callback}
    {q : QueueKind} {mode : Mode} {delay : Int} {s : State} (hs : P s)
    (huse : P (s.setQueue q (firstUse (s.queue q))))
    (hadd : ∀ id, 0 ≤ delay → (s.queue q).ins.length < s.params.insCap →
      P (s.setQueue q (withNewJob (s.queue q) (newJob id cb mode delay)))) :
    (internalSchedule present cb q mode delay s).Ends P := by
  unfold internalSchedule ensureQueue
  split
  · exact hs
  · have hdraw : (drawId (s.setQueue q (firstUse (s.queue q)))).Ends
        (BookkeepingOnly (s.setQueue q (firstUse (s.queue q)))) :=
      drawId_ends (fun _ _ h h' => h'.trans h) (.refl _)
    refine hdraw.andThen (fun t ht => hP _ t ht huse) fun id t ht => ?_
    have hq : t.queue q = firstUse (s.queue q) := by simpa using ht.queue q
    unfold appendIns
    split
    · exact raiseFault_ends hP (hP _ t ht huse) _
    · rename_i hcap
      have hnew := hadd id (by omega) (by simpa [hq, ht.params] using hcap)
      refine hP _ _ ?_ hnew
      simpa [shrinkPoll, withNewJob, newJob, hq] using
        ht.setQueue q (withNewJob (s.queue q) (newJob id cb mode delay))

/-- A notification changes nothing or enqueues one callback. -/
theorem notifyBinding_ends {bs : List Binding} {c : BitVec 8} {s : State} (hs : P s)
    (hadd : ∀ b, (enqueueCallback b s).Ends P) : (notifyBinding bs c s).Ends P := by
  rcases notifyBinding_cases bs c s with ⟨hnone, _⟩ | ⟨b, _, _, hb⟩
  · rw [hnone]; exact hs
  · rw [hb]; exact hadd b

/-- A loop's or the pulse path's step ends as its body does, or is undone
(60_exceptions.md R236). -/
theorem commit_of_ends (hP : IgnoresBookkeeping P) {b : Body Unit} {s : State} (hs : P s)
    (hb : b.Ends P) : P (commit s b) := by
  cases b with
  | done a t => exact hb
  | stopped t => exact hb
  | refused r => exact hP s _ ⟨rfl, fun _ => rfl⟩ hs

theorem respond_of_ignores (hP : IgnoresBookkeeping P) {s : State} (hs : P s) (st : Status)
    (v : Val) : P (s.respond st v) := hP s _ ⟨rfl, fun _ => rfl⟩ hs

/-- A host command ends as its body does, up to the response, or leaves the state as it was. -/
theorem command_of_ends (hP : IgnoresBookkeeping P) {body : State → Body Val} {s : State}
    (hs : P s) (hb : (body s).Ends P) : P (command body s) := by
  unfold command
  split
  · exact respond_of_ignores hP hs _ _
  · cases h : body s with
    | done v t => exact respond_of_ignores hP (by simpa [h] using hb) _ _
    | stopped t => exact respond_of_ignores hP (by simpa [h] using hb) _ _
    | refused r => exact hP s _ ⟨rfl, fun _ => rfl⟩ hs

theorem illegalCommand_of_ignores (hP : IgnoresBookkeeping P) {s : State} (hs : P s) :
    P (illegalCommand s) := by
  unfold illegalCommand
  split <;> exact respond_of_ignores hP hs _ _

end Sys2Proof.Machine
end

section
/-! PROOFS. Which agent writes which part of the record: one inversion lemma per operation, and one
for the whole step. -/

namespace Sys2Proof.Machine

/-! ### What the scheduler leaves unchanged -/

theorem internalSchedule_record (present : Bool) (cb : Callback) (q : QueueKind) (mode : Mode)
    (delay : Int) (s : State) :
    (internalSchedule present cb q mode delay s).Ends fun t => t.record = s.record :=
  internalSchedule_ends (ignoresBookkeeping_record (· = s.record)) rfl (by simp) (by simp)

theorem enqueueCallback_record (b : Binding) (s : State) :
    (enqueueCallback b s).Ends fun t => t.record = s.record :=
  (internalSchedule_record ..).andThen (fun _ h => h) fun _ _ h => h

theorem notifyBinding_record (bs : List Binding) (c : BitVec 8) (s : State) :
    (notifyBinding bs c s).Ends fun t => t.record = s.record :=
  notifyBinding_ends rfl fun b => enqueueCallback_record b s

theorem appendRem_record (q : QueueKind) (id : JobId) (s : State) :
    (appendRem q id s).Ends fun t => t.record = s.record :=
  appendRem_ends (ignoresBookkeeping_record (· = s.record)) rfl (by simp)

/-! ### The pulse path -/

/-- The assembler writes BITS, HIWORD, LOWORD, ADDR and CMDF only, and a counter of at most 31 stays
so (41_datagram_assembler.md R120 to R128). -/
structure AssemblerStep (s t : State) : Prop where
  writes : t = { s with
    bits := t.bits, hiword := t.hiword, loword := t.loword, addr := t.addr, cmdf := t.cmdf }
  bits_le : s.bits.toNat ≤ 31 → t.bits.toNat ≤ 31

theorem countBit_bits (s : State) (h : s.bits.toNat ≤ 31) :
    (countBit s).bits.toNat = s.bits.toNat + 1 := by
  simp only [countBit, BitVec.toNat_add]
  simp
  omega

/-- A shifted bit counts to 32 at most; the snap leaves 9
(41_datagram_assembler.md R121 to R124). -/
theorem shiftBit_bits_le (b : Bool) (s : State) (h : s.bits.toNat ≤ 32) :
    (shiftBit b s).bits.toNat ≤ 32 := by
  unfold shiftBit
  split
  · split
    · simp
    · exact h
  · split <;> exact h

theorem shiftBit_writes (b : Bool) (s : State) :
    shiftBit b s = { s with
      bits := (shiftBit b s).bits, hiword := (shiftBit b s).hiword,
      loword := (shiftBit b s).loword } := by
  unfold shiftBit
  split
  · split <;> rfl
  · split <;> rfl

theorem appendBit_step (b : Bool) (s : State) : AssemblerStep s (appendBit b s).2 := by
  have hwrites := shiftBit_writes b (countBit s)
  have hle (h : s.bits.toNat ≤ 31) : (shiftBit b (countBit s)).bits.toNat ≤ 32 :=
    shiftBit_bits_le b _ (by rw [countBit_bits s h]; omega)
  unfold appendBit
  generalize shiftBit b (countBit s) = u at hwrites hle
  unfold freezeDatagram
  split
  · exact ⟨by rw [hwrites]; rfl, fun _ => by simp⟩
  · exact ⟨by rw [hwrites]; rfl, fun h => by have := hle h; dsimp only; omega⟩

theorem assemble_step (c : PulseClass) (s : State) : AssemblerStep s (assemble c s).2 := by
  cases c with
  | bit b => exact appendBit_step b s
  | repeatMarker => exact ⟨rfl, fun _ => by simp [assemble]⟩
  | startMarker => exact ⟨rfl, fun _ => by simp [assemble]⟩
  | noise => exact ⟨rfl, fun _ => by simp [assemble]⟩

/-- What neither the pulse path nor the scheduler writes: the record without the
decoder's fields. -/
def State.frontEnd (s : State) : State :=
  { s.record with
    bits := 0, hiword := 0, loword := 0, addr := 0, cmdf := 0, newdg := false, acValid := false,
    acCode := 0, deadline := 0 }

/-- The pulse path writes the decoder's fields only, and does not clear NEWDG
(42_decoder_state_machine.md R130). -/
structure PulseStep (s t : State) : Prop where
  frontEnd : t.frontEnd = s.frontEnd
  newdg : s.newdg = true → t.newdg = true

theorem PulseStep.refl (s : State) : PulseStep s s := ⟨rfl, id⟩

theorem PulseStep.trans {s t u : State} (h : PulseStep s t) (h' : PulseStep t u) : PulseStep s u :=
  ⟨h'.frontEnd.trans h.frontEnd, fun hs => h'.newdg (h.newdg hs)⟩

theorem pulseStep_of_record {s t : State} (h : t.record = s.record) : PulseStep s t where
  frontEnd := by simp only [State.frontEnd, h]
  newdg hs := (congrArg State.newdg h :).trans hs

theorem AssemblerStep.pulseStep {s t : State} (h : AssemblerStep s t) : PulseStep s t := by
  obtain ⟨hw, _⟩ := h
  rw [hw]
  exact ⟨rfl, id⟩

theorem ignoresBookkeeping_pulseStep (s : State) : IgnoresBookkeeping (PulseStep s) :=
  fun _ _ h hs => hs.trans (pulseStep_of_record h.record)

theorem notifyBinding_pulseStep (bs : List Binding) (c : BitVec 8) (s : State) :
    (notifyBinding bs c s).Ends (PulseStep s) :=
  (notifyBinding_record bs c s).mono fun _ => pulseStep_of_record

theorem releaseActive_pulseStep (s : State) : (releaseActive s).Ends (PulseStep s) := by
  unfold releaseActive
  split
  · exact notifyBinding_pulseStep ..
  · exact .refl s

theorem changeCommand_pulseStep (new : BitVec 8) (s : State) :
    (changeCommand new s).Ends (PulseStep s) := by
  unfold changeCommand
  split
  · exact .refl s
  · refine (releaseActive_pulseStep s).andThen (fun _ h => h) fun _ s1 h1 => ?_
    refine (notifyBinding_pulseStep s1.pressed new s1).andThen (fun _ h2 => h1.trans h2) ?_
    exact fun _ s2 h2 => (h1.trans h2).trans ⟨rfl, id⟩

theorem refreshDeadline_pulseStep (s : State) : (refreshDeadline s).Ends (PulseStep s) := by
  rw [refreshDeadline_eq]
  split
  · exact ⟨rfl, id⟩
  · trivial

theorem dispatch_pulseStep (r : PulseResult) (s : State) : (dispatch r s).Ends (PulseStep s) := by
  cases r with
  | incomplete => exact .refl s
  | repeatCode => exact refreshDeadline_pulseStep s
  | datagram =>
    refine (refreshDeadline_pulseStep s).andThen (fun _ h => h) fun _ s1 h1 => ?_
    have hnew : PulseStep s1 { s1 with newdg := true } := ⟨rfl, fun _ => rfl⟩
    exact (changeCommand_pulseStep _ _).mono fun _ h2 => (h1.trans hnew).trans h2

theorem commit_pulseBody_pulseStep (d : Nat) (s : State) : PulseStep s (commit s (pulseBody d s)) :=
  commit_of_ends (ignoresBookkeeping_pulseStep s) (.refl s)
    ((dispatch_pulseStep _ _).mono fun _ h => (assemble_step _ _).pulseStep.trans h)

theorem pulse_pulseStep (d : Nat) (s : State) : PulseStep s (pulse d s) := by
  unfold pulse
  split
  · exact commit_pulseBody_pulseStep d s
  · exact .refl s

/-- An EDGE latches a mark or makes a pulse (42_decoder_state_machine.md R133). -/
theorem edge_cases (e : EdgeKind) (t : Nat) (s : State) :
    edge e t s = { s with markLatch := t } ∨ PulseStep s (edge e t s) := by
  unfold edge
  split
  · split
    · exact .inl rfl
    · exact .inr (commit_pulseBody_pulseStep _ s)
  · exact .inr (.refl s)

/-! ### The loops -/

/-- The record after a repeat-check that times out (43_button_dispatch_repeat_timeout.md R150). -/
def timedOut (s : State) : State :=
  { s.record with acValid := false, acCode := 0, bits := 0 }

theorem repeatCheck_record (s : State) :
    (repeatCheck s).Ends fun t => t.record = s.record ∨ t.record = timedOut s := by
  rcases repeatCheck_cases s with ⟨_, h⟩ | ⟨_, _, h⟩
  · rw [h]; exact .inl rfl
  · rw [h]
    refine (notifyBinding_record ..).andThen (fun _ => .inl) fun _ t ht => .inr ?_
    simp only [timedOut, ← ht]
    rfl

theorem fireCallback_record (q : QueueKind) (fired : Bool) (cb : Callback) (s : State) :
    (fireCallback q fired cb s).Ends fun t =>
      t.record = s.record ∨ cb = .repeatCheck ∧ t.record = timedOut s := by
  unfold fireCallback
  split
  · cases cb with
    | user h => exact .inl (record_setQueue ..)
    | repeatCheck =>
      refine (repeatCheck_record s).andThen (fun _ h => by simpa using h) fun _ t ht => ?_
      simpa [advanceCursor] using ht
  · exact .inl (by simp [advanceCursor])

theorem runJobAt_record (q : QueueKind) (i : Nat) (j : Job) (s : State) :
    (runJobAt q i j s).Ends fun t =>
      t.record = s.record ∨ j.cb = .repeatCheck ∧ t.record = timedOut s := by
  unfold runJobAt
  refine Body.Ends.andThen (P := fun t => t.record = s.record) ?_ (fun _ => .inl) fun _ s2 h2 => ?_
  · split
    · simpa using appendRem_record q j.id
        (s.setQueue q { s.queue q with
          live := (s.queue q).live.set i (jobRun j (s.queue q).delta).job })
    · simp
  · simpa only [timedOut, h2] using fireCallback_record q _ j.cb s2

theorem loopHead_record (q : QueueKind) (s : State) :
    (loopHead q s).Ends fun t => t.record = s.record := by
  unfold loopHead
  split
  · exact raiseFault_ends (ignoresBookkeeping_record (· = s.record)) (by simp [drainBuffers]) _
  · simp [drainBuffers]

/-- A loop's turn writes the record only when it runs a live repeat-check job that times out
(43_button_dispatch_repeat_timeout.md R150, 44_scheduler.md R177). -/
theorem loopBody_record (q : QueueKind) (s : State) :
    (loopBody q s).Ends fun t => t.record = s.record ∨
      (∃ j ∈ (s.queue q).live, j.cb = .repeatCheck) ∧ t.record = timedOut s := by
  unfold loopBody
  split
  · exact .inl (record_setQueue ..)
  · exact (loopHead_record q s).mono fun _ => .inl
  · split
    · exact (loopHead_record q s).mono fun _ => .inl
    · exact .inl rfl
  · split
    · unfold loopRunJob
      dsimp only
      split
      · rename_i j hj
        exact (runJobAt_record q _ j s).mono fun t ht =>
          ht.imp_right fun ⟨hcb, htimed⟩ => ⟨⟨j, List.mem_of_getElem? hj, hcb⟩, htimed⟩
      · exact .inl rfl
    · split
      · exact .inl (record_setQueue ..)
      · exact .inl rfl
  · exact .inl rfl

theorem loopStep_record (q : QueueKind) (s : State) :
    (loopStep q s).record = s.record ∨
      (∃ j ∈ (s.queue q).live, j.cb = .repeatCheck) ∧ (loopStep q s).record = timedOut s := by
  rcases loopStep_cases q s with ⟨_, h⟩ | ⟨_, _, h⟩
  · exact .inl (by rw [h])
  · rw [h]
    exact commit_of_ends (ignoresBookkeeping_record fun r => r = s.record ∨ _ ∧ r = timedOut s)
      (.inl rfl) (loopBody_record q s)

/-! ### The commands and the whole step -/

/-- What a command writes of the record: CONNECT, ON_BUTTON and QUERY_DATAGRAM their own fields, the
others nothing (45_host_commands.md R202 to R204). -/
def CommandWrites (i : Instr) (s t : State) : Prop :=
  t.record = s.record ∨
  match i with
  | .connect _ _ => ∃ proto conn mark,
      t.record = { s.record with init := true, proto := proto, conn := conn, markLatch := mark }
  | .onButton _ _ _ _ => ∃ pressed released,
      t.record = { s.record with init := true, pressed := pressed, released := released }
  | .queryDatagram => t.record = { s.record with newdg := false }
  | _ => False

theorem ignoresBookkeeping_commandWrites (i : Instr) (s : State) :
    IgnoresBookkeeping (CommandWrites i s) := by
  intro t u h ht
  simpa only [CommandWrites, h.record] using ht

theorem connectBody_writes (pr : Protocol) (pin : BitVec 8) (s : State) :
    (connectBody pr s).Ends (CommandWrites (.connect pr pin) s) := by
  unfold connectBody
  split
  · exact .inr ⟨s.proto, s.conn, s.markLatch, rfl⟩
  · have hnew (t : State) (ht : t.record = { s.record with
        init := true, proto := pr, conn := true, markLatch := 0 }) :
        CommandWrites (.connect pr pin) s t := .inr ⟨_, _, _, ht⟩
    exact (internalSchedule_record ..).andThen hnew fun _ => hnew

theorem onButtonBody_writes (present : Bool) (kind : Transition) (cb : Handle) (code : ButtonCode)
    (s : State) : (onButtonBody present kind cb code s).Ends
      (CommandWrites (.onButton present kind cb code) s) := by
  have hP := ignoresBookkeeping_commandWrites (.onButton present kind cb code) s
  refine Body.Ends.andThen ?_ (fun _ h => h) fun _ _ h => h
  unfold appendBinding
  split
  · exact raiseFault_ends hP (.inr ⟨s.pressed, s.released, rfl⟩) _
  · cases kind with
    | pressed => exact .inr ⟨_, s.released, rfl⟩
    | released => exact .inr ⟨s.pressed, _, rfl⟩

theorem exec_writes (i : Instr) {s t : State} (h : exec i s = .next t) : CommandWrites i s t := by
  have hP := ignoresBookkeeping_commandWrites i s
  have hsame : CommandWrites i s s := .inl rfl
  cases i with
  | nop => cases h; exact command_of_ends hP hsame hsame
  | connect pr pin => cases h; exact command_of_ends hP hsame (connectBody_writes pr pin s)
  | onButton present kind cb code =>
    cases h
    split
    · exact command_of_ends hP hsame (onButtonBody_writes ..)
    · exact illegalCommand_of_ignores hP hsame
  | schedule present q mode cb delay =>
    cases h
    exact command_of_ends hP hsame ((internalSchedule_record ..).mono fun _ => .inl)
  | cancel q id =>
    cases h
    refine command_of_ends hP hsame (((appendRem_record q id _).mono fun t ht => ?_).andThen
      (fun _ h => h) fun _ _ h => h)
    exact .inl (ht.trans (record_setQueue ..))
  | queryDatagram => cases h; exact command_of_ends hP hsame (.inr rfl)
  | readState q sel =>
    simp only [exec, execReadState] at h
    split at h <;> cases h
    · exact respond_of_ignores hP hsame _ _
    · exact illegalCommand_of_ignores hP hsame
  | cbReturn q =>
    cases h
    split
    · exact command_of_ends hP hsame (.inl (record_setQueue ..))
    · exact illegalCommand_of_ignores hP hsame

/-- What a move writes of the record; an event the ports cannot carry writes nothing
(10_state.md R50). -/
def MoveWrites (m : Move) (s t : State) : Prop :=
  t.record = s.record ∨
  match m with
  | .command w => ∃ i, decode w = .ok i ∧ CommandWrites i s t
  | .pulse _ => PulseStep s t
  | .edge _ mark => t.record = { s.record with markLatch := mark } ∨ PulseStep s t
  | .tick n => t.record = { s.record with now := s.now + n }
  | .reset => t.record = (State.powerUp s.params s.now).record
  | .loop q => (∃ j ∈ (s.queue q).live, j.cb = .repeatCheck) ∧ t.record = timedOut s

theorem runCommand_writes (w : Word) {s t : State} (h : runCommand w s = .next t) :
    MoveWrites (.command w) s t := by
  unfold runCommand at h
  split at h
  · rename_i i hi
    exact .inr ⟨i, hi, exec_writes i h⟩
  · cases h
    exact .inl (illegalCommand_of_ignores (ignoresBookkeeping_record (· = s.record)) rfl)

theorem perform_writes (m : Move) {s t : State} (h : perform m s = .next t) : MoveWrites m s t := by
  unfold perform at h
  split at h
  · cases m with
    | command w => exact runCommand_writes w h
    | pulse d => cases h; exact .inr (pulse_pulseStep d s)
    | edge e mark =>
      cases h
      exact .inr ((edge_cases e mark s).imp_left fun hmark => by rw [hmark]; rfl)
    | tick n =>
      cases h
      unfold tick
      split
      · exact .inr rfl
      · exact .inl rfl
    | reset => cases h; exact .inr rfl
    | loop q => cases h; exact loopStep_record q s
  · cases h; exact .inl rfl

/-- Taking a move off the agenda, or choosing a free one, is no write of IRDS. -/
theorem takeMove_bookkeepingOnly (s : State) : BookkeepingOnly s (takeMove s).2 := by
  unfold takeMove
  split <;> exact ⟨rfl, fun _ => rfl⟩

theorem MoveWrites.of_bookkeepingOnly {m : Move} {s u t : State} (hu : BookkeepingOnly s u)
    (h : MoveWrites m u t) : MoveWrites m s t := by
  have hpulse : PulseStep u t → PulseStep s t := (pulseStep_of_record hu.record).trans
  have hnow : u.now = s.now := (congrArg State.now hu.record :)
  rcases h with h | h
  · exact .inl (h.trans hu.record)
  · refine .inr ?_
    cases m with
    | command w => simpa only [CommandWrites, hu.record] using h
    | pulse d => exact hpulse h
    | edge e mark => exact h.imp (fun h => by rw [h, hu.record]) hpulse
    | tick n => simpa only [hu.record, hnow] using h
    | reset => simpa only [hu.params, hnow] using h
    | loop q => simpa only [hu.queue, timedOut, hu.record] using h

theorem step_writes {s t : State} (h : step s = .next t) : MoveWrites (takeMove s).1 s t :=
  (perform_writes _ h).of_bookkeepingOnly (takeMove_bookkeepingOnly s)

/-! ### The clock and the parameters -/

theorem CommandWrites.now_params {i : Instr} {s t : State} (h : CommandWrites i s t) :
    t.now = s.now ∧ t.params = s.params := by
  have hkeep {u : State} (h : t.record = u) (hn : u.now = s.now) (hp : u.params = s.params) :
      t.now = s.now ∧ t.params = s.params := by
    subst h
    exact ⟨hn, hp⟩
  rcases h with h | h
  · exact hkeep h rfl rfl
  · cases i with
    | connect pr pin => obtain ⟨_, _, _, h⟩ := h; exact hkeep h rfl rfl
    | onButton present kind cb code => obtain ⟨_, _, h⟩ := h; exact hkeep h rfl rfl
    | queryDatagram => exact hkeep h rfl rfl
    | nop => exact h.elim
    | schedule => exact h.elim
    | cancel => exact h.elim
    | readState => exact h.elim
    | cbReturn => exact h.elim

theorem MoveWrites.now_params {m : Move} {s t : State} (h : MoveWrites m s t) :
    s.now ≤ t.now ∧ t.params = s.params := by
  have hkeep {u : State} (h : t.record = u) (hn : s.now ≤ u.now) (hp : u.params = s.params) :
      s.now ≤ t.now ∧ t.params = s.params := by
    subst h
    exact ⟨hn, hp⟩
  have hpulse (h : PulseStep s t) : s.now ≤ t.now ∧ t.params = s.params :=
    ⟨(congrArg State.now h.frontEnd :).ge, (congrArg State.params h.frontEnd :)⟩
  rcases h with h | h
  · exact hkeep h le_rfl rfl
  · cases m with
    | command w =>
      obtain ⟨i, _, hi⟩ := h
      exact ⟨hi.now_params.1.ge, hi.now_params.2⟩
    | pulse d => exact hpulse h
    | edge e mark => exact h.elim (fun h => hkeep h le_rfl rfl) hpulse
    | tick n => exact hkeep h (Nat.le_add_right _ _) rfl
    | reset => exact hkeep h le_rfl rfl
    | loop q => exact hkeep h.2 le_rfl rfl

/-- Settles O55: whatever an agent writes, NOW is at most added to and the parameters stay. -/
theorem clockNeverDecreases : Obligations.ClockNeverDecreases :=
  fun _ _ h => (step_writes h).now_params

/-! ### The owners of the record's parts -/

/-- The move is no event of the pulse path. -/
def NoPulse (m : Move) : Prop := (∀ d, m ≠ .pulse d) ∧ ∀ e d, m ≠ .edge e d

/-- The move is no CONNECT. -/
def NoConnect (m : Move) : Prop := ∀ pr pin, moveInstr m ≠ some (.connect pr pin)

/-- The move is no ON_BUTTON. -/
def NoOnButton (m : Move) : Prop := ∀ p k cb code, moveInstr m ≠ some (.onButton p k cb code)

/-- Each part of the record is as it was unless the move belongs to one of its owners
(10_state.md R50). -/
structure Ownership (m : Move) (s t : State) : Prop where
  decoder : NoPulse m →
    t.hiword = s.hiword ∧ t.loword = s.loword ∧ t.addr = s.addr ∧ t.cmdf = s.cmdf ∧
    t.deadline = s.deadline ∧ (t.newdg = true → s.newdg = true)
  active : NoPulse m → m ≠ .loop .prio →
    t.bits = s.bits ∧ t.acValid = s.acValid ∧ t.acCode = s.acCode
  markLatch : (∀ e d, m ≠ .edge e d) → NoConnect m → t.markLatch = s.markLatch
  newdg : moveInstr m ≠ some .queryDatagram → s.newdg = true → t.newdg = true
  connection : NoConnect m → t.conn = s.conn ∧ t.proto = s.proto
  init : NoConnect m → NoOnButton m → t.init = s.init
  bindings : NoOnButton m → t.pressed = s.pressed ∧ t.released = s.released

theorem ownership_of_record {s t : State} (m : Move) (h : t.record = s.record) :
    Ownership m s t := by
  simp only [State.record, State.mk.injEq] at h
  constructor <;> simp [h]

theorem CommandWrites.ownership {i : Instr} {s t : State} (h : CommandWrites i s t) {m : Move}
    (hm : moveInstr m = some i) : Ownership m s t := by
  rcases h with h | h
  · exact ownership_of_record m h
  · cases i with
    | connect pr pin =>
      obtain ⟨_, _, _, h⟩ := h
      have hconnect : ¬ NoConnect m := fun hno => hno pr pin hm
      simp only [State.record, State.mk.injEq] at h
      constructor <;> simp [h, hconnect]
    | onButton present kind cb code =>
      obtain ⟨_, _, h⟩ := h
      have hbutton : ¬ NoOnButton m := fun hno => hno present kind cb code hm
      simp only [State.record, State.mk.injEq] at h
      constructor <;> simp [h, hbutton]
    | queryDatagram =>
      simp only [State.record, State.mk.injEq] at h
      constructor <;> simp [h, hm]
    | nop => exact h.elim
    | schedule => exact h.elim
    | cancel => exact h.elim
    | readState => exact h.elim
    | cbReturn => exact h.elim

theorem PulseStep.ownership {m : Move} {s t : State} (h : PulseStep s t) (hm : ¬ NoPulse m) :
    Ownership m s t := by
  obtain ⟨hfront, hnew⟩ := h
  simp only [State.frontEnd, State.record, State.mk.injEq] at hfront
  constructor
  case newdg => exact fun _ => hnew
  all_goals simp [hfront, hm]

theorem MoveWrites.ownership {m : Move} {s t : State} (h : MoveWrites m s t) (hm : m ≠ .reset)
    (hcbq : ∀ j ∈ s.cbq.live, j.cb ≠ .repeatCheck) : Ownership m s t := by
  rcases h with h | h
  · exact ownership_of_record m h
  · cases m with
    | command w =>
      obtain ⟨i, hi, hw⟩ := h
      exact hw.ownership (by simp [moveInstr, hi, Except.toOption])
    | pulse d => exact h.ownership fun hno => hno.1 d rfl
    | edge e mark =>
      have hpulse : ¬ NoPulse (.edge e mark) := fun hno => hno.2 e mark rfl
      rcases h with h | h
      · simp only [State.record, State.mk.injEq] at h
        constructor <;> simp [h, hpulse]
      · exact h.ownership hpulse
    | tick n =>
      simp only [State.record, State.mk.injEq] at h
      constructor <;> simp [h]
    | reset => exact absurd rfl hm
    | loop q =>
      obtain ⟨⟨j, hj, hcheck⟩, h⟩ := h
      cases q with
      | prio =>
        simp only [timedOut, State.record, State.mk.injEq] at h
        constructor <;> simp [h]
      | cbq => exact absurd hcheck (hcbq j hj)

/-- Settles O59: the writers of each part, by what each move writes of the record; the bounds keep a
repeat-check off the Callback queue, so only the Priority loop can time out. -/
theorem decoderRecordOwnership : Obligations.DecoderRecordOwnership := by
  intro s t hs hstep hreset
  have hcbq : ∀ j ∈ s.cbq.live, j.cb ≠ .repeatCheck := fun j hj => by
    simpa [isRepeatCheck] using hs.repeatChecks.none_on_cbq j (List.mem_append_left _ hj)
  obtain ⟨hdecoder, hactive, hmark, hnewdg, hconnection, hinit, hbindings⟩ :=
    (step_writes hstep).ownership hreset hcbq
  exact ⟨hdecoder, hactive, hmark, hnewdg, hconnection, hinit, hbindings⟩

end Sys2Proof.Machine
end

section
/-! PROOFS. The ranges and limits: each queue update keeps the limits of a queue, each operation
keeps `Bounds`, and so every step does. -/

namespace Sys2Proof.Machine

/-! ### Bounds, by the record and by the queues -/

/-- The ranges of the part of the state that the scheduler does not own. -/
structure RecordBounds (s : State) : Prop where
  params : s.params.Legal
  now_lt : s.now < 2 ^ s.params.wTime
  deadline_lt : s.deadline < 2 ^ s.params.wTime
  markLatch_lt : s.markLatch < 2 ^ s.params.wDur
  bits_le : s.bits.toNat ≤ 31
  active_none : s.acValid = false → s.acCode = 0
  conn_init : s.conn = true → s.init = true
  pressed : BindingBounds s.params s.pressed
  released : BindingBounds s.params s.released

theorem recordBounds_record (s : State) : RecordBounds s.record ↔ RecordBounds s :=
  ⟨fun h => { h with }, fun h => { h with }⟩

theorem RecordBounds.congr {s t : State} (hs : RecordBounds s) (h : t.record = s.record) :
    RecordBounds t := by
  rw [← recordBounds_record, h]
  exact (recordBounds_record s).2 hs

/-- How many repeat-check jobs a queue may hold: one on PRIO once connected (10_state.md R37). -/
def checkLimit (q : QueueKind) (conn : Bool) : Nat :=
  match q with
  | .prio => if conn then 1 else 0
  | .cbq => 0

theorem checkLimit_le (q : QueueKind) (conn : Bool) : checkLimit q conn ≤ 1 := by
  cases q with
  | prio => cases conn <;> decide
  | cbq => exact Nat.zero_le _

/-- How many repeat-check jobs a queue holds, live or waiting. -/
def checkCount (Q : Queue) : Nat := (Q.live ++ Q.ins).countP isRepeatCheck

/-- The shape of a repeat-check job (45_host_commands.md R202). -/
def CheckShape (j : Job) : Prop :=
  isRepeatCheck j = true → j.mode = .repeating ∧ j.delay = Config.repeatTimeoutMs

@[simp] theorem isRepeatCheck_newJob {id : JobId} {cb : Callback} {mode : Mode} {delay : Int} :
    isRepeatCheck (newJob id cb mode delay) = true ↔ cb = .repeatCheck :=
  decide_eq_true_iff

/-- The limits of one queue, its repeat-check jobs included. -/
structure QueueLimits (p : Params) (now limit : Nat) (Q : Queue) : Prop where
  bounds : QueueBounds p now Q
  checks_le : checkCount Q ≤ limit
  shape : ∀ j ∈ Q.live ++ Q.ins, CheckShape j

/-- `Q` is within the limits that `s` sets for the queue `q`. -/
def State.Admits (s : State) (q : QueueKind) (Q : Queue) : Prop :=
  QueueLimits s.params s.now (checkLimit q s.conn) Q

theorem bounds_iff (s : State) :
    Bounds s ↔ RecordBounds s ∧ ∀ q, s.Admits q (s.queue q) := by
  constructor
  · intro h
    obtain ⟨hunconn, hone, hcbq, hshape⟩ := h.repeatChecks
    refine ⟨{ h with }, fun q => ?_⟩
    cases q with
    | prio =>
      refine ⟨h.prio, ?_, hshape⟩
      cases hc : s.conn
      · exact (hunconn hc).le
      · exact hone
    | cbq =>
      refine ⟨h.cbq, ?_, fun j hj hcheck => absurd hcheck (by simp [hcbq j hj])⟩
      exact (List.countP_eq_zero.2 fun j hj => by simp [hcbq j hj]).le
  · rintro ⟨hr, hq⟩
    have hle := (hq .prio).checks_le
    refine { hr with prio := (hq .prio).bounds, cbq := (hq .cbq).bounds, repeatChecks := ?_ }
    refine ⟨fun hc => ?_, ?_, fun j hj => ?_, (hq .prio).shape⟩
    · simpa [hc, checkLimit, checkCount] using hle
    · exact hle.trans (checkLimit_le ..)
    · have hzero := List.countP_eq_zero.1 (Nat.le_zero.1 (hq .cbq).checks_le) j hj
      simpa using hzero

theorem Bounds.recordBounds {s : State} (h : Bounds s) : RecordBounds s := ((bounds_iff s).1 h).1

theorem Bounds.admits {s : State} (h : Bounds s) (q : QueueKind) :
    s.Admits q (s.queue q) := ((bounds_iff s).1 h).2 q

theorem admits_congr {s t : State} (h : t.record = s.record) (q : QueueKind) (Q : Queue) :
    t.Admits q Q ↔ s.Admits q Q := by
  have hp : t.params = s.params := (congrArg State.params h :)
  have hn : t.now = s.now := (congrArg State.now h :)
  have hc : t.conn = s.conn := (congrArg State.conn h :)
  simp only [State.Admits, hp, hn, hc]

theorem ignoresBookkeeping_bounds : IgnoresBookkeeping Bounds := by
  intro s t h hs
  refine (bounds_iff t).2 ⟨hs.recordBounds.congr h.record, fun q => ?_⟩
  rw [admits_congr h.record, h.queue]
  exact hs.admits q

theorem emit_bounds {s : State} (hs : Bounds s) (e : Output) : Bounds (s.emit e) :=
  ignoresBookkeeping_bounds s _ ⟨rfl, fun _ => rfl⟩ hs

theorem Bounds.setQueue {s : State} (hs : Bounds s) {q : QueueKind} {Q : Queue}
    (hQ : s.Admits q Q) : Bounds (s.setQueue q Q) := by
  refine (bounds_iff _).2 ⟨hs.recordBounds.congr (record_setQueue ..), fun r => ?_⟩
  rw [admits_congr (record_setQueue s q Q)]
  by_cases hr : r = q
  · subst hr; simpa using hQ
  · simpa [queue_setQueue_of_ne _ _ _ _ hr] using hs.admits r

/-! ### What keeps the limits of a queue -/

section
variable {p : Params} {now limit : Nat} {Q : Queue}

theorem queueLimits_initial (hp : p.Legal) (now limit : Nat) :
    QueueLimits p now limit (Queue.initial p) where
  bounds := {
    uncreated := fun _ => rfl
    live_le := Nat.zero_le _
    ins_le := Nat.zero_le _
    rem_le := Nat.zero_le _
    minPoll_pos := hp.pollInit_pos
    minPoll_le := le_rfl
    prev_le := Nat.zero_le _
    delta_nonneg := le_rfl
    delta_le := Int.natCast_nonneg _
    k_le := le_rfl
    invoke_lt := nofun
    live_jobs := nofun
    ins_jobs := nofun }
  checks_le := Nat.zero_le _
  shape := nofun

/-- A queue whose loop has started exists. -/
theorem QueueLimits.created (h : QueueLimits p now limit Q) (hphase : Q.phase ≠ .unstarted) :
    Q.created = true := by
  by_contra hc
  exact hphase (congrArg Queue.phase (h.bounds.uncreated (by simpa using hc)) :)

theorem QueueLimits.mono (h : QueueLimits p now limit Q) {now' limit' : Nat} (hn : now ≤ now')
    (hl : limit ≤ limit') : QueueLimits p now' limit' Q where
  bounds := { h.bounds with
    prev_le := h.bounds.prev_le.trans hn
    delta_le := h.bounds.delta_le.trans (by omega) }
  checks_le := h.checks_le.trans hl
  shape := h.shape

/-- A new cursor and phase. -/
theorem QueueLimits.moveCursor (h : QueueLimits p now limit Q) (hc : Q.created = true) {k : Nat}
    {phase : Phase} (hk : k ≤ Q.live.length) (hinvoke : phase = .invoke → k < Q.live.length) :
    QueueLimits p now limit { Q with k := k, phase := phase } where
  bounds := { h.bounds with uncreated := by simp [hc], k_le := hk, invoke_lt := hinvoke }
  checks_le := h.checks_le
  shape := h.shape

theorem QueueLimits.firstUse (h : QueueLimits p now limit Q) :
    QueueLimits p now limit (firstUse Q) := by
  rcases firstUse_cases Q with ⟨_, hQ⟩ | ⟨_, hQ⟩
  · rwa [hQ]
  · rw [hQ]
    exact {
      bounds := { h.bounds with
        uncreated := nofun, k_le := Nat.zero_le _, invoke_lt := nofun }
      checks_le := h.checks_le
      shape := h.shape }

theorem QueueLimits.appendRem (h : QueueLimits p now limit Q) (hc : Q.created = true) {id : JobId}
    (hcap : Q.rem.length < p.remCap) :
    QueueLimits p now limit { Q with rem := Q.rem ++ [id] } where
  bounds := { h.bounds with uncreated := by simp [hc], rem_le := by simpa using hcap }
  checks_le := h.checks_le
  shape := h.shape

/-- The accepted job takes the free place that INS[q] has, and a place within the limit if it is a
repeat-check (44_scheduler.md R162, R163, R166). -/
theorem QueueLimits.withNewJob (h : QueueLimits p now limit Q) {id : JobId} {cb : Callback}
    {mode : Mode} {delay : Int} (hcap : Q.ins.length < p.insCap) (hnonneg : 0 ≤ delay)
    (hlt : delay < 2 ^ 31)
    (hcheck : cb = .repeatCheck →
      checkCount Q < limit ∧ mode = .repeating ∧ delay = Config.repeatTimeoutMs) :
    QueueLimits p now limit (withNewJob Q (newJob id cb mode delay)) where
  bounds := { h.firstUse.bounds with
    uncreated := by simp [Machine.withNewJob]
    ins_le := by simpa [Machine.withNewJob] using hcap
    minPoll_pos := shrunkPoll_pos _ _ _ h.bounds.minPoll_pos
    minPoll_le := (shrunkPoll_le ..).trans h.bounds.minPoll_le
    ins_jobs := by
      intro j hj
      rcases List.mem_append.1 hj with hj | hj
      · exact h.bounds.ins_jobs j hj
      · rw [List.mem_singleton.1 hj]
        exact ⟨hnonneg, hlt, rfl⟩ }
  checks_le := by
    have hle := h.checks_le
    simp only [checkCount, Machine.withNewJob, firstUse_live, List.countP_append,
      List.countP_singleton] at hle hcheck ⊢
    split
    · rename_i hj
      have := (hcheck (isRepeatCheck_newJob.1 hj)).1
      omega
    · omega
  shape := by
    intro j hj
    simp only [Machine.withNewJob, firstUse_live, ← List.append_assoc] at hj
    rcases List.mem_append.1 hj with hj | hj
    · exact h.shape j hj
    · rw [List.mem_singleton.1 hj]
      exact fun hj => (hcheck (isRepeatCheck_newJob.1 hj)).2

/-- START (44_scheduler.md R167). -/
theorem QueueLimits.start (h : QueueLimits p now limit Q) (hc : Q.created = true) :
    QueueLimits p now limit { Q with prev := now, phase := .head } where
  bounds := { h.bounds with uncreated := by simp [hc], prev_le := le_rfl, invoke_lt := nofun }
  checks_le := h.checks_le
  shape := h.shape

/-- The elapsed time is within the clock, and emptying INS[q] drops jobs only
(44_scheduler.md R168, R169). -/
theorem QueueLimits.drain (h : QueueLimits p now limit Q) (hc : Q.created = true) :
    QueueLimits p now limit
      { Q with delta := (now : Int) - Q.prev, prev := now, ins := [], rem := [] } where
  bounds := { h.bounds with
    uncreated := by simp [hc]
    ins_le := Nat.zero_le _
    rem_le := Nat.zero_le _
    prev_le := le_rfl
    delta_nonneg := by have := h.bounds.prev_le; dsimp only; omega
    delta_le := by dsimp only; omega
    ins_jobs := nofun }
  checks_le := by
    refine Nat.le_trans ?_ h.checks_le
    simp [checkCount]
  shape := fun j hj => h.shape j (List.mem_append_left _ (by simpa using hj))

theorem drainedLive_sublist (Q : Queue) : (drainedLive Q).Sublist (Q.live ++ Q.ins) :=
  List.filter_sublist

/-- HEAD that fits: the drained list becomes the live list (44_scheduler.md R168, R169). -/
theorem QueueLimits.head (h : QueueLimits p now limit Q) (hc : Q.created = true)
    (hcap : (drainedLive Q).length ≤ p.jobCap) :
    QueueLimits p now limit
      { Q with
        delta := (now : Int) - Q.prev, prev := now, ins := [], rem := [],
        live := drainedLive Q, k := 0, phase := .run } where
  bounds := { (h.drain hc).bounds with
    uncreated := by simp [hc]
    live_le := hcap
    k_le := Nat.zero_le _
    invoke_lt := nofun
    live_jobs := by
      intro j hj
      rcases List.mem_append.1 ((drainedLive_sublist Q).subset hj) with hj | hj
      · exact h.bounds.live_jobs j hj
      · obtain ⟨hnonneg, hlt, heq⟩ := h.bounds.ins_jobs j hj
        exact ⟨hnonneg, hlt, heq.le⟩ }
  checks_le := by
    refine Nat.le_trans ?_ h.checks_le
    simpa [checkCount] using (drainedLive_sublist Q).countP_le
  shape := fun j hj => h.shape j ((drainedLive_sublist Q).subset (by simpa using hj))

/-- A job's new countdown, not past its delay, leaves the job what it was otherwise. -/
theorem QueueLimits.setRemaining (h : QueueLimits p now limit Q) (hc : Q.created = true) {i : Nat}
    {j : Job} {r : Int} (hj : Q.live[i]? = some j) (hr : r ≤ j.delay) :
    QueueLimits p now limit { Q with live := Q.live.set i { j with remaining := r } } := by
  have hmem : j ∈ Q.live := List.mem_of_getElem? hj
  obtain ⟨hi, hget⟩ := List.getElem?_eq_some_iff.1 hj
  exact {
    bounds := { h.bounds with
      uncreated := by simp [hc]
      live_le := by simpa using h.bounds.live_le
      k_le := by simpa using h.bounds.k_le
      invoke_lt := by simpa using h.bounds.invoke_lt
      live_jobs := by
        intro j' hj'
        rcases List.mem_or_eq_of_mem_set hj' with hj' | rfl
        · exact h.bounds.live_jobs j' hj'
        · obtain ⟨hnonneg, hlt, _⟩ := h.bounds.live_jobs j hmem
          exact ⟨hnonneg, hlt, hr⟩ }
    checks_le := by
      have hsame : isRepeatCheck { j with remaining := r } = isRepeatCheck j := rfl
      have hpos : isRepeatCheck j = true → 0 < Q.live.countP isRepeatCheck :=
        fun hcheck => List.countP_pos_iff.2 ⟨j, hmem, hcheck⟩
      have hle := h.checks_le
      simp only [checkCount, List.countP_append, List.countP_set hi, hget, hsame] at hle ⊢
      split
      · rename_i hcheck
        have := hpos hcheck
        omega
      · omega
    shape := by
      intro j' hj'
      rcases List.mem_append.1 hj' with hj' | hj'
      · rcases List.mem_or_eq_of_mem_set hj' with hj' | rfl
        · exact h.shape j' (List.mem_append_left _ hj')
        · exact h.shape j (List.mem_append_left _ hmem)
      · exact h.shape j' (List.mem_append_right _ hj') }

end

/-- JobRun leaves a countdown of at most the job's delay (44_scheduler.md R173 to R176). -/
theorem jobRun_remaining_le {j : Job} (delta : Int) (h : j.remaining ≤ j.delay) :
    (jobRun j delta).job.remaining ≤ j.delay := by
  unfold jobRun
  split
  · exact h
  · split
    · dsimp only; omega
    · split
      · dsimp only; omega
      · exact le_rfl

/-! ### Enqueues and notifications -/

theorem internalSchedule_bounds {present : Bool} {cb : Callback} {q : QueueKind} {mode : Mode}
    {delay : Int} {s : State} (hs : Bounds s) (hlt : delay < 2 ^ 31)
    (hcheck : cb = .repeatCheck → checkCount (s.queue q) < checkLimit q s.conn ∧
      mode = .repeating ∧ delay = Config.repeatTimeoutMs) :
    (internalSchedule present cb q mode delay s).Ends Bounds :=
  internalSchedule_ends ignoresBookkeeping_bounds hs (hs.setQueue (hs.admits q).firstUse)
    fun _ hnonneg hcap => hs.setQueue ((hs.admits q).withNewJob hcap hnonneg hlt hcheck)

theorem enqueueCallback_bounds {s : State} (hs : Bounds s) (b : Binding) :
    (enqueueCallback b s).Ends Bounds := by
  refine Body.Ends.andThen ?_ (fun _ h => h) fun _ _ h => h
  exact internalSchedule_bounds hs (by decide) nofun

theorem notifyBinding_bounds {s : State} (hs : Bounds s) (bs : List Binding) (c : BitVec 8) :
    (notifyBinding bs c s).Ends Bounds :=
  notifyBinding_ends hs fun b => enqueueCallback_bounds hs b

/-- A notification goes to the Callback queue (43_button_dispatch_repeat_timeout.md R149). -/
theorem notifyBinding_prio (bs : List Binding) (c : BitVec 8) (s : State) :
    (notifyBinding bs c s).Ends fun t => t.prio = s.prio := by
  have hP : IgnoresBookkeeping fun t => t.prio = s.prio :=
    fun _ _ h ht => (h.queue .prio).trans ht
  refine notifyBinding_ends rfl fun b => ?_
  exact (internalSchedule_ends hP rfl rfl fun _ _ _ => rfl).andThen (fun _ h => h) fun _ _ h => h

theorem appendRem_bounds {q : QueueKind} {id : JobId} {s : State} (hs : Bounds s)
    (hc : (s.queue q).created = true) : (appendRem q id s).Ends Bounds :=
  appendRem_ends ignoresBookkeeping_bounds hs fun hcap =>
    hs.setQueue ((hs.admits q).appendRem hc hcap)

/-! ### The pulse path -/

theorem AssemblerStep.bounds {s t : State} (h : AssemblerStep s t) (hs : Bounds s) : Bounds t := by
  obtain ⟨hwrites, hbits⟩ := h
  have hle := hbits hs.bits_le
  rw [hwrites]
  exact (bounds_iff _).2 ⟨{ hs.recordBounds with bits_le := hle }, hs.admits⟩

theorem refreshDeadline_bounds {s : State} (hs : Bounds s) : (refreshDeadline s).Ends Bounds := by
  rw [refreshDeadline_eq]
  split
  · rename_i hle
    have hpos : 0 < 2 ^ s.params.wTime := Nat.two_pow_pos _
    have hlt : s.now + 120 < 2 ^ s.params.wTime := by unfold maxTime at hle; omega
    exact (bounds_iff _).2 ⟨{ hs.recordBounds with deadline_lt := hlt }, hs.admits⟩
  · trivial

theorem changeCommand_bounds (new : BitVec 8) {s : State} (hs : Bounds s) :
    (changeCommand new s).Ends Bounds := by
  unfold changeCommand
  split
  · exact hs
  · have hrelease : (releaseActive s).Ends Bounds := by
      unfold releaseActive
      split
      · exact notifyBinding_bounds hs _ _
      · exact hs
    refine hrelease.andThen (fun _ h => h) fun _ s1 h1 => ?_
    refine (notifyBinding_bounds h1 _ _).andThen (fun _ h => h) fun _ s2 h2 => ?_
    exact (bounds_iff _).2 ⟨{ h2.recordBounds with active_none := nofun }, h2.admits⟩

theorem dispatch_bounds (r : PulseResult) {s : State} (hs : Bounds s) :
    (dispatch r s).Ends Bounds := by
  cases r with
  | incomplete => exact hs
  | repeatCode => exact refreshDeadline_bounds hs
  | datagram =>
    refine (refreshDeadline_bounds hs).andThen (fun _ h => h) fun _ s1 h1 => ?_
    exact changeCommand_bounds _ ((bounds_iff _).2 ⟨{ h1.recordBounds with }, h1.admits⟩)

theorem commit_pulseBody_bounds (d : Nat) {s : State} (hs : Bounds s) :
    Bounds (commit s (pulseBody d s)) :=
  commit_of_ends ignoresBookkeeping_bounds hs (dispatch_bounds _ ((assemble_step _ s).bounds hs))

theorem pulse_bounds (d : Nat) {s : State} (hs : Bounds s) : Bounds (pulse d s) := by
  unfold pulse
  split
  · exact commit_pulseBody_bounds d hs
  · exact hs

theorem edge_bounds (e : EdgeKind) {mark : Nat} {s : State} (hmark : mark < 2 ^ s.params.wDur)
    (hs : Bounds s) : Bounds (edge e mark s) := by
  unfold edge
  split
  · split
    · exact (bounds_iff _).2 ⟨{ hs.recordBounds with markLatch_lt := hmark }, hs.admits⟩
    · exact commit_pulseBody_bounds _ hs
  · exact hs

/-! ### The loops -/

/-- RUNJOB of `q` is under way: a pass runs and its cursor is at a live job. -/
structure RunTurn (q : QueueKind) (s : State) : Prop where
  bounds : Bounds s
  phase : (s.queue q).phase = .run
  k_lt : (s.queue q).k < (s.queue q).live.length

theorem RunTurn.created {q : QueueKind} {s : State} (h : RunTurn q s) :
    (s.queue q).created = true :=
  (h.bounds.admits q).created (by rw [h.phase]; nofun)

theorem RunTurn.setQueue {q : QueueKind} {s : State} (h : RunTurn q s) {Q : Queue}
    (hQ : s.Admits q Q) (hphase : Q.phase = (s.queue q).phase) (hk : Q.k = (s.queue q).k)
    (hlive : Q.live.length = (s.queue q).live.length) : RunTurn q (s.setQueue q Q) where
  bounds := h.bounds.setQueue hQ
  phase := by simpa [hphase] using h.phase
  k_lt := by simpa [hk, hlive] using h.k_lt

theorem ignoresBookkeeping_runTurn (q : QueueKind) : IgnoresBookkeeping (RunTurn q) :=
  fun s t h hs => {
    bounds := ignoresBookkeeping_bounds s t h hs.bounds
    phase := by rw [h.queue]; exact hs.phase
    k_lt := by rw [h.queue]; exact hs.k_lt }

/-- `K[q] <- K[q] + 1` in a pass (44_scheduler.md R172). -/
theorem RunTurn.advanceCursor {q : QueueKind} {s : State} (h : RunTurn q s) :
    Bounds (advanceCursor q s) :=
  h.bounds.setQueue ((h.bounds.admits q).moveCursor h.created h.k_lt (by simp [h.phase]))

theorem RunTurn.invokeCallback {q : QueueKind} {s : State} (h : RunTurn q s) (cb : Handle) :
    Bounds (invokeCallback q cb s) :=
  emit_bounds
    (h.bounds.setQueue ((h.bounds.admits q).moveCursor h.created h.k_lt.le fun _ => h.k_lt)) _

/-- The repeat-check leaves the Priority queue, whose turn it is, as it was. -/
theorem RunTurn.repeatCheck {s : State} (h : RunTurn .prio s) :
    (repeatCheck s).Ends (RunTurn .prio) := by
  rcases repeatCheck_cases s with ⟨_, heq⟩ | ⟨_, _, heq⟩
  · rw [heq]; exact h
  · rw [heq]
    have hturn {t : State} (ht : Bounds t ∧ t.prio = s.prio) : RunTurn .prio t :=
      ⟨ht.1, by rw [queue_prio, ht.2]; exact h.phase, by rw [queue_prio, ht.2]; exact h.k_lt⟩
    refine ((notifyBinding_bounds h.bounds _ _).and (notifyBinding_prio ..)).andThen
      (fun _ => hturn) fun _ t ht => ?_
    obtain ⟨_, hphase, hk⟩ := hturn ht
    refine ⟨(bounds_iff _).2 ⟨{ ht.1.recordBounds with bits_le := ?_, active_none := ?_ },
      ht.1.admits⟩, hphase, hk⟩
    · simp
    · exact fun _ => rfl

theorem RunTurn.fireCallback {q : QueueKind} {s : State} (h : RunTurn q s) (fired : Bool)
    {cb : Callback} (hq : cb = .repeatCheck → q = .prio) :
    (fireCallback q fired cb s).Ends Bounds := by
  unfold Machine.fireCallback
  split
  · cases cb with
    | user handle => exact h.invokeCallback handle
    | repeatCheck =>
      obtain rfl := hq rfl
      exact h.repeatCheck.andThen (fun _ ht => ht.bounds) fun _ _ ht => ht.advanceCursor
  · exact h.advanceCursor

theorem RunTurn.runJobAt {q : QueueKind} {s : State} (h : RunTurn q s) {i : Nat} {j : Job}
    (hj : (s.queue q).live[i]? = some j) : (runJobAt q i j s).Ends Bounds := by
  have hmem : j ∈ (s.queue q).live := List.mem_of_getElem? hj
  have hq : j.cb = .repeatCheck → q = .prio := by
    cases q with
    | prio => exact fun _ => rfl
    | cbq =>
      have := h.bounds.repeatChecks.none_on_cbq j (List.mem_append_left _ hmem)
      exact fun hcheck => by simp [isRepeatCheck, hcheck] at this
  have hset : RunTurn q (s.setQueue q { s.queue q with
      live := (s.queue q).live.set i (jobRun j (s.queue q).delta).job }) := by
    have hle := jobRun_remaining_le (s.queue q).delta
      ((h.bounds.admits q).bounds.live_jobs j hmem).2.2
    obtain ⟨r, hr⟩ := jobRun_job j (s.queue q).delta
    rw [hr] at hle ⊢
    exact h.setQueue ((h.bounds.admits q).setRemaining h.created hj hle) rfl rfl (by simp)
  unfold Machine.runJobAt
  refine Body.Ends.andThen (P := RunTurn q) ?_ (fun _ ht => ht.bounds)
    fun _ _ ht => ht.fireCallback _ hq
  split
  · refine appendRem_ends (ignoresBookkeeping_runTurn q) hset fun hcap => ?_
    exact hset.setQueue ((hset.bounds.admits q).appendRem hset.created hcap) rfl rfl rfl
  · exact hset

theorem loopHead_bounds {q : QueueKind} {s : State} (hs : Bounds s)
    (hc : (s.queue q).created = true) : (loopHead q s).Ends Bounds := by
  unfold loopHead
  split
  · exact raiseFault_ends ignoresBookkeeping_bounds (hs.setQueue ((hs.admits q).drain hc)) _
  · rename_i hcap
    have hhead := hs.setQueue ((hs.admits q).head hc (Nat.le_of_not_lt hcap))
    simpa [drainBuffers] using hhead

theorem loopBody_bounds {q : QueueKind} {s : State} (hs : Bounds s)
    (hc : (s.queue q).created = true) : (loopBody q s).Ends Bounds := by
  have hQ := hs.admits q
  unfold loopBody
  split
  · exact hs.setQueue (hQ.start hc)
  · exact loopHead_bounds hs hc
  · split
    · exact loopHead_bounds hs hc
    · exact hs
  · rename_i hphase
    split
    · rename_i hk
      unfold loopRunJob
      dsimp only
      split
      · rename_i j hj
        exact RunTurn.runJobAt ⟨hs, hphase, hk⟩ hj
      · exact hs
    · split
      · exact hs.setQueue (hQ.moveCursor hc hQ.bounds.k_le nofun)
      · exact hs
  · exact hs

theorem loopStep_bounds (q : QueueKind) {s : State} (hs : Bounds s) : Bounds (loopStep q s) := by
  rcases loopStep_cases q s with ⟨_, h⟩ | ⟨hc, _, h⟩
  · rwa [h]
  · rw [h]
    exact commit_of_ends ignoresBookkeeping_bounds hs (loopBody_bounds hs hc)

/-! ### The commands -/

theorem ensureInit_bounds {s : State} (hs : Bounds s) : Bounds (ensureInit s) :=
  (bounds_iff _).2 ⟨{ hs.recordBounds with conn_init := fun _ => rfl }, hs.admits⟩

/-- The first CONNECT makes room for the repeat-check job that it schedules
(45_host_commands.md R202). -/
theorem connectBody_bounds (pr : Protocol) {s : State} (hs : Bounds s) :
    (connectBody pr s).Ends Bounds := by
  unfold connectBody
  split
  · exact ensureInit_bounds hs
  · rename_i hconn
    have hconn : s.conn = false := by simpa using hconn
    have hconnected : Bounds { ensureInit s with proto := pr, conn := true, markLatch := 0 } := by
      refine (bounds_iff _).2 ⟨{ hs.recordBounds with
        markLatch_lt := Nat.two_pow_pos _, conn_init := fun _ => rfl }, fun q => ?_⟩
      refine (hs.admits q).mono le_rfl ?_
      cases q <;> simp [checkLimit, hconn]
    refine (internalSchedule_bounds hconnected (by decide) fun _ => ⟨?_, rfl, rfl⟩).andThen
      (fun _ h => h) fun _ _ h => h
    exact Nat.lt_of_le_of_lt (hs.repeatChecks.unconnected hconn).le Nat.one_pos

theorem BindingBounds.append {p : Params} {bs : List Binding} (h : BindingBounds p bs) {b : Binding}
    (hcap : bs.length < p.bindCap) (hcode : legalCode b.code = true)
    (habsent : b.present = false → b.handle = 0) : BindingBounds p (bs ++ [b]) where
  length_le := by simpa using hcap
  codes b' hb' := by
    rcases List.mem_append.1 hb' with hb' | hb'
    · exact h.codes b' hb'
    · rw [List.mem_singleton.1 hb']; exact hcode
  absent b' hb' := by
    rcases List.mem_append.1 hb' with hb' | hb'
    · exact h.absent b' hb'
    · rw [List.mem_singleton.1 hb']; exact habsent

theorem onButtonBody_bounds (present : Bool) (kind : Transition) (cb : Handle) {code : ButtonCode}
    (hcode : legalCode code = true) {s : State} (hs : Bounds s) :
    (onButtonBody present kind cb code s).Ends Bounds := by
  have hinit := ensureInit_bounds hs
  have habsent : present = false → bindingHandle present cb = 0 := fun h => by
    simp [bindingHandle, h]
  refine Body.Ends.andThen ?_ (fun _ h => h) fun _ _ h => h
  unfold appendBinding
  split
  · exact raiseFault_ends ignoresBookkeeping_bounds hinit _
  · rename_i hcap
    have hcap := Nat.lt_of_not_le hcap
    cases kind with
    | pressed =>
      exact (bounds_iff _).2 ⟨{ hinit.recordBounds with
        pressed := hs.pressed.append hcap hcode habsent }, hinit.admits⟩
    | released =>
      exact (bounds_iff _).2 ⟨{ hinit.recordBounds with
        released := hs.released.append hcap hcode habsent }, hinit.admits⟩

theorem delayMs_lt (delay : BitVec 32) : delayMs delay < 2 ^ 31 := BitVec.toInt_lt

theorem cancelBody_bounds (q : QueueKind) (id : JobId) {s : State} (hs : Bounds s) :
    ((appendRem q id (ensureQueue q s)).andThen fun _ s1 => .done 0 s1 : Body Val).Ends Bounds :=
  (appendRem_bounds (hs.setQueue (hs.admits q).firstUse) (by simp)).andThen
    (fun _ h => h) fun _ _ h => h

theorem returnFromCallback_bounds {q : QueueKind} {s : State} (hs : Bounds s)
    (hphase : (s.queue q).phase = .invoke) : Bounds (returnFromCallback q s) :=
  have hQ := hs.admits q
  have hcreated := hQ.created (by rw [hphase]; nofun)
  hs.setQueue (hQ.moveCursor hcreated (hQ.bounds.invoke_lt hphase) nofun)

theorem exec_bounds (i : Instr) {s t : State} (hs : Bounds s) (h : exec i s = .next t) :
    Bounds t := by
  have hP := ignoresBookkeeping_bounds
  cases i with
  | nop => cases h; exact command_of_ends hP hs hs
  | connect pr pin => cases h; exact command_of_ends hP hs (connectBody_bounds pr hs)
  | onButton present kind cb code =>
    cases h
    split
    · rename_i hcode
      exact command_of_ends hP hs (onButtonBody_bounds present kind cb hcode hs)
    · exact illegalCommand_of_ignores hP hs
  | schedule present q mode cb delay =>
    cases h
    exact command_of_ends hP hs (internalSchedule_bounds hs (delayMs_lt delay) nofun)
  | cancel q id => cases h; exact command_of_ends hP hs (cancelBody_bounds q id hs)
  | queryDatagram =>
    cases h
    exact command_of_ends hP hs ((bounds_iff _).2 ⟨{ hs.recordBounds with }, hs.admits⟩)
  | readState q sel =>
    simp only [exec, execReadState] at h
    split at h <;> cases h
    · exact respond_of_ignores hP hs _ _
    · exact illegalCommand_of_ignores hP hs
  | cbReturn q =>
    cases h
    split
    · rename_i hphase
      exact command_of_ends hP hs (returnFromCallback_bounds hs hphase)
    · exact illegalCommand_of_ignores hP hs

/-! ### The start, the clock and the whole step -/

theorem powerUp_bounds {p : Params} {now : Nat} (hp : p.Legal) (hnow : now < 2 ^ p.wTime) :
    Bounds (State.powerUp p now) := by
  refine (bounds_iff _).2 ⟨?_, fun q => ?_⟩
  · exact {
      params := hp
      now_lt := hnow
      deadline_lt := Nat.two_pow_pos _
      markLatch_lt := Nat.two_pow_pos _
      bits_le := Nat.zero_le _
      active_none := fun _ => rfl
      conn_init := nofun
      pressed := ⟨Nat.zero_le _, nofun, nofun⟩
      released := ⟨Nat.zero_le _, nofun, nofun⟩ }
  · cases q <;> exact queueLimits_initial hp _ _

theorem resetBlock_bounds {s : State} (hs : Bounds s) : Bounds (resetBlock s) :=
  ignoresBookkeeping_bounds (State.powerUp ..) _ ⟨rfl, fun _ => rfl⟩
    (powerUp_bounds hs.params hs.now_lt)

theorem tick_bounds (n : Nat) {s : State} (hs : Bounds s) : Bounds (tick n s) := by
  unfold tick
  split
  · rename_i hle
    have hpos : 0 < 2 ^ s.params.wTime := Nat.two_pow_pos _
    have hlt : s.now + n < 2 ^ s.params.wTime := by unfold maxTime at hle; omega
    exact (bounds_iff _).2 ⟨{ hs.recordBounds with now_lt := hlt },
      fun q => (hs.admits q).mono (Nat.le_add_right ..) le_rfl⟩
  · exact ignoresBookkeeping_bounds s _ ⟨rfl, fun _ => rfl⟩ hs

theorem perform_bounds (m : Move) {s t : State} (hs : Bounds s) (h : perform m s = .next t) :
    Bounds t := by
  unfold perform at h
  split at h
  · rename_i hlegal
    cases m with
    | command w =>
      dsimp only [runCommand] at h
      split at h
      · exact exec_bounds _ hs h
      · cases h; exact illegalCommand_of_ignores ignoresBookkeeping_bounds hs
    | pulse d => cases h; exact pulse_bounds d hs
    | edge e mark => cases h; exact edge_bounds e (of_decide_eq_true hlegal) hs
    | tick n => cases h; exact tick_bounds n hs
    | reset => cases h; exact resetBlock_bounds hs
    | loop q => cases h; exact loopStep_bounds q hs
  · cases h; exact hs

/-- Settles O51: taking a move keeps the bounds, and so does the atomic step of every agent. -/
theorem stepKeepsBounds : Obligations.StepKeepsBounds :=
  fun s _ hs h =>
    perform_bounds _ (ignoresBookkeeping_bounds _ _ (takeMove_bookkeepingOnly s) hs) h

/-- Settles O50: at the start of a run every list is empty. -/
theorem powerUpMeetsInvariants : Obligations.PowerUpMeetsInvariants := by
  intro p now hp hnow
  have hpass (q : QueueKind) : PassState q (Queue.initial p) :=
    ⟨fun _ _ => nofun, nofun, fun _ _ _ => nofun⟩
  exact ⟨powerUp_bounds hp hnow, ⟨.nil, nofun, .nil, nofun⟩,
    ⟨fun _ => hpass .prio, fun _ => hpass .cbq, nofun⟩⟩

end Sys2Proof.Machine
end

section
/-! PROOFS. Who writes LIVE[q] (20_memory.md R70): only the loop of q does, RUNJOB in place and HEAD
anew; every other operation keeps both live lists. -/

namespace Sys2Proof.Machine

/-- Both live lists are as they were. -/
def KeepsLive (s t : State) : Prop := ∀ r, (t.queue r).live = (s.queue r).live

theorem KeepsLive.refl (s : State) : KeepsLive s s := fun _ => rfl

theorem KeepsLive.trans {s t u : State} (h : KeepsLive s t) (h' : KeepsLive t u) : KeepsLive s u :=
  fun r => (h' r).trans (h r)

theorem keepsLive_of_queues {s t : State} (hprio : t.prio = s.prio) (hcbq : t.cbq = s.cbq) :
    KeepsLive s t
  | .prio => congrArg Queue.live hprio
  | .cbq => congrArg Queue.live hcbq

theorem keepsLive_setQueue {s : State} {q : QueueKind} {Q : Queue}
    (h : Q.live = (s.queue q).live) : KeepsLive s (s.setQueue q Q) := by
  intro r
  by_cases hr : r = q
  · subst hr; simpa using h
  · rw [queue_setQueue_of_ne _ _ _ _ hr]

theorem BookkeepingOnly.keepsLive {s t : State} (h : BookkeepingOnly s t) : KeepsLive s t :=
  fun r => by rw [h.queue]

theorem ignoresBookkeeping_keepsLive (s : State) : IgnoresBookkeeping (KeepsLive s) :=
  fun _ _ h hs => hs.trans h.keepsLive

/-! ### The shared operations and the pulse path -/

theorem internalSchedule_keepsLive (present : Bool) (cb : Callback) (q : QueueKind) (mode : Mode)
    (delay : Int) (s : State) :
    (internalSchedule present cb q mode delay s).Ends (KeepsLive s) :=
  internalSchedule_ends (ignoresBookkeeping_keepsLive s) (.refl s)
    (keepsLive_setQueue (firstUse_live _)) fun _ _ _ => keepsLive_setQueue (firstUse_live _)

theorem appendRem_keepsLive (q : QueueKind) (id : JobId) (s : State) :
    (appendRem q id s).Ends (KeepsLive s) :=
  appendRem_ends (ignoresBookkeeping_keepsLive s) (.refl s) fun _ => keepsLive_setQueue rfl

theorem notifyBinding_keepsLive (bs : List Binding) (c : BitVec 8) (s : State) :
    (notifyBinding bs c s).Ends (KeepsLive s) :=
  notifyBinding_ends (.refl s) fun _ =>
    (internalSchedule_keepsLive ..).andThen (fun _ h => h) fun _ _ h => h

theorem AssemblerStep.keepsLive {s t : State} (h : AssemblerStep s t) : KeepsLive s t :=
  keepsLive_of_queues (congrArg State.prio h.writes :) (congrArg State.cbq h.writes :)

theorem refreshDeadline_keepsLive (s : State) : (refreshDeadline s).Ends (KeepsLive s) := by
  unfold refreshDeadline
  split
  · trivial
  · exact keepsLive_of_queues rfl rfl

theorem changeCommand_keepsLive (new : BitVec 8) (s : State) :
    (changeCommand new s).Ends (KeepsLive s) := by
  unfold changeCommand
  split
  · exact .refl s
  · have hrelease : (releaseActive s).Ends (KeepsLive s) := by
      unfold releaseActive
      split
      · exact notifyBinding_keepsLive ..
      · exact .refl s
    refine hrelease.andThen (fun _ h => h) fun _ s1 h1 => ?_
    refine (notifyBinding_keepsLive s1.pressed new s1).andThen (fun _ h2 => h1.trans h2) ?_
    exact fun _ s2 h2 => (h1.trans h2).trans (keepsLive_of_queues rfl rfl)

theorem dispatch_keepsLive (r : PulseResult) (s : State) : (dispatch r s).Ends (KeepsLive s) := by
  cases r with
  | incomplete => exact .refl s
  | repeatCode => exact refreshDeadline_keepsLive s
  | datagram =>
    refine (refreshDeadline_keepsLive s).andThen (fun _ h => h) fun _ s1 h1 => ?_
    have hnew : KeepsLive s1 { s1 with newdg := true } := keepsLive_of_queues rfl rfl
    exact (changeCommand_keepsLive _ _).mono fun _ h2 => (h1.trans hnew).trans h2

theorem commit_pulseBody_keepsLive (d : Nat) (s : State) :
    KeepsLive s (commit s (pulseBody d s)) :=
  commit_of_ends (ignoresBookkeeping_keepsLive s) (.refl s)
    ((dispatch_keepsLive _ _).mono fun _ h => (assemble_step _ _).keepsLive.trans h)

theorem pulse_keepsLive (d : Nat) (s : State) : KeepsLive s (pulse d s) := by
  unfold pulse
  split
  · exact commit_pulseBody_keepsLive d s
  · exact .refl s

theorem edge_keepsLive (e : EdgeKind) (mark : Nat) (s : State) : KeepsLive s (edge e mark s) := by
  unfold edge
  split
  · split
    · exact keepsLive_of_queues rfl rfl
    · exact commit_pulseBody_keepsLive _ s
  · exact .refl s

theorem tick_keepsLive (n : Nat) (s : State) : KeepsLive s (tick n s) := by
  unfold tick
  split <;> exact keepsLive_of_queues rfl rfl

/-! ### The commands -/

theorem connectBody_keepsLive (pr : Protocol) (s : State) :
    (connectBody pr s).Ends (KeepsLive s) := by
  unfold connectBody
  split
  · exact keepsLive_of_queues rfl rfl
  · have hconnected : KeepsLive s
        { ensureInit s with proto := pr, conn := true, markLatch := 0 } :=
      keepsLive_of_queues rfl rfl
    exact (internalSchedule_keepsLive ..).andThen (fun _ => hconnected.trans)
      fun _ _ => hconnected.trans

theorem onButtonBody_keepsLive (present : Bool) (kind : Transition) (cb : Handle)
    (code : ButtonCode) (s : State) :
    (onButtonBody present kind cb code s).Ends (KeepsLive s) := by
  have hinit : KeepsLive s (ensureInit s) := keepsLive_of_queues rfl rfl
  refine Body.Ends.andThen ?_ (fun _ h => h) fun _ _ h => h
  unfold appendBinding
  split
  · exact raiseFault_ends (ignoresBookkeeping_keepsLive s) hinit _
  · cases kind with
    | pressed => exact keepsLive_of_queues rfl rfl
    | released => exact keepsLive_of_queues rfl rfl

theorem cancelBody_keepsLive (q : QueueKind) (id : JobId) (s : State) :
    ((appendRem q id (ensureQueue q s)).andThen fun _ s1 => .done 0 s1 : Body Val).Ends
      (KeepsLive s) := by
  have huse : KeepsLive s (ensureQueue q s) := keepsLive_setQueue (firstUse_live _)
  exact (appendRem_keepsLive ..).andThen (fun _ => huse.trans) fun _ _ => huse.trans

/-- No command writes a live list: SCHEDULE and CANCEL go to the buffers, and CB_RETURN moves the
cursor (20_memory.md R70). -/
theorem exec_keepsLive (i : Instr) {s t : State} (h : exec i s = .next t) : KeepsLive s t := by
  have hP := ignoresBookkeeping_keepsLive s
  have hsame := KeepsLive.refl s
  cases i with
  | nop => cases h; exact command_of_ends hP hsame hsame
  | connect pr pin => cases h; exact command_of_ends hP hsame (connectBody_keepsLive pr s)
  | onButton present kind cb code =>
    cases h
    split
    · exact command_of_ends hP hsame (onButtonBody_keepsLive ..)
    · exact illegalCommand_of_ignores hP hsame
  | schedule present q mode cb delay =>
    cases h; exact command_of_ends hP hsame (internalSchedule_keepsLive ..)
  | cancel q id => cases h; exact command_of_ends hP hsame (cancelBody_keepsLive q id s)
  | queryDatagram => cases h; exact command_of_ends hP hsame (keepsLive_of_queues rfl rfl)
  | readState q sel =>
    simp only [exec, execReadState] at h
    split at h <;> cases h
    · exact respond_of_ignores hP hsame _ _
    · exact illegalCommand_of_ignores hP hsame
  | cbReturn q =>
    cases h
    split
    · exact command_of_ends hP hsame (keepsLive_setQueue rfl)
    · exact illegalCommand_of_ignores hP hsame

theorem runCommand_keepsLive (w : Word) {s t : State} (h : runCommand w s = .next t) :
    KeepsLive s t := by
  unfold runCommand at h
  split at h
  · exact exec_keepsLive _ h
  · cases h
    exact illegalCommand_of_ignores (ignoresBookkeeping_keepsLive s) (.refl s)

/-! ### The loops -/

/-- What the loop of `q` may do to the live lists: the other queue's stays, and its own keeps its
ids in every turn but HEAD (20_memory.md R70). -/
structure LoopWritesLive (q : QueueKind) (s t : State) : Prop where
  other : ∀ r, r ≠ q → (t.queue r).live = (s.queue r).live
  ids : ¬ headEnabled q s → (t.queue q).live.map Job.id = (s.queue q).live.map Job.id

theorem KeepsLive.loopWritesLive {s t : State} (h : KeepsLive s t) (q : QueueKind) :
    LoopWritesLive q s t :=
  ⟨fun r _ => h r, fun _ => by rw [h q]⟩

theorem LoopWritesLive.trans_keepsLive {q : QueueKind} {s t u : State} (h : LoopWritesLive q s t)
    (h' : KeepsLive t u) : LoopWritesLive q s u :=
  ⟨fun r hr => (h' r).trans (h.other r hr), fun hhead => by rw [h' q]; exact h.ids hhead⟩

theorem ignoresBookkeeping_loopWritesLive (q : QueueKind) (s : State) :
    IgnoresBookkeeping (LoopWritesLive q s) :=
  fun _ _ h hs => hs.trans_keepsLive h.keepsLive

theorem repeatCheck_keepsLive (s : State) : (repeatCheck s).Ends (KeepsLive s) := by
  rcases repeatCheck_cases s with ⟨_, h⟩ | ⟨_, _, h⟩
  · rw [h]; exact .refl s
  · rw [h]
    exact (notifyBinding_keepsLive ..).andThen (fun _ h => h) fun _ t ht =>
      ht.trans (keepsLive_of_queues rfl rfl)

theorem loopStart_keepsLive (q : QueueKind) (s : State) : KeepsLive s (loopStart q s) :=
  keepsLive_setQueue rfl

theorem loopEnd_keepsLive (q : QueueKind) (s : State) : KeepsLive s (loopEnd q s) :=
  keepsLive_setQueue rfl

theorem drainBuffers_keepsLive (q : QueueKind) (s : State) : KeepsLive s (drainBuffers q s) :=
  keepsLive_setQueue rfl

theorem advanceCursor_keepsLive (q : QueueKind) (s : State) : KeepsLive s (advanceCursor q s) :=
  keepsLive_setQueue rfl

theorem invokeCallback_keepsLive (q : QueueKind) (h : Handle) (s : State) :
    KeepsLive s (invokeCallback q h s) := by
  have hphase : KeepsLive s (s.setQueue q { s.queue q with phase := .invoke }) :=
    keepsLive_setQueue rfl
  exact hphase.trans (keepsLive_of_queues rfl rfl)

theorem fireCallback_keepsLive (q : QueueKind) (fired : Bool) (cb : Callback) (s : State) :
    (fireCallback q fired cb s).Ends (KeepsLive s) := by
  unfold fireCallback
  split
  · cases cb with
    | user h => exact invokeCallback_keepsLive q h s
    | repeatCheck =>
      exact (repeatCheck_keepsLive s).andThen (fun _ h => h) fun _ t ht =>
        ht.trans (advanceCursor_keepsLive q t)
  · exact advanceCursor_keepsLive q s

theorem jobRun_id (j : Job) (delta : Int) : (jobRun j delta).job.id = j.id := by
  obtain ⟨r, hr⟩ := jobRun_job j delta
  rw [hr]

/-- A job run in place of itself leaves the ids of the list. -/
theorem map_id_set_jobRun {live : List Job} {i : Nat} {j : Job} (hj : live[i]? = some j)
    (delta : Int) : (live.set i (jobRun j delta).job).map Job.id = live.map Job.id := by
  obtain ⟨hi, rfl⟩ := List.getElem?_eq_some_iff.1 hj
  rw [List.map_set, jobRun_id, ← List.map_set, List.set_getElem_self]

/-- RUNJOB writes the countdown of one job of its own list and no id
(44_scheduler.md R172). -/
theorem runJobAt_loopWritesLive {q : QueueKind} {i : Nat} {j : Job} {s : State}
    (hj : (s.queue q).live[i]? = some j) : (runJobAt q i j s).Ends (LoopWritesLive q s) := by
  have hset : LoopWritesLive q s (s.setQueue q { s.queue q with
      live := (s.queue q).live.set i (jobRun j (s.queue q).delta).job }) :=
    ⟨fun r hr => by rw [queue_setQueue_of_ne _ _ _ _ hr],
      fun _ => by simpa using map_id_set_jobRun hj _⟩
  unfold runJobAt
  refine Body.Ends.andThen (P := LoopWritesLive q s) ?_ (fun _ h => h) fun _ t ht =>
    (fireCallback_keepsLive ..).mono fun _ => ht.trans_keepsLive
  split
  · exact (appendRem_keepsLive ..).mono fun _ => hset.trans_keepsLive
  · exact hset

/-- HEAD writes the live list of its own queue only (44_scheduler.md R168, R169). -/
theorem loopHead_loopWritesLive {q : QueueKind} {s : State} (hhead : headEnabled q s) :
    (loopHead q s).Ends (LoopWritesLive q s) := by
  have hdrain := drainBuffers_keepsLive q s
  unfold loopHead
  split
  · exact raiseFault_ends (ignoresBookkeeping_loopWritesLive q s) (hdrain.loopWritesLive q) _
  · exact ⟨fun r hr => by rw [queue_setQueue_of_ne _ _ _ _ hr, hdrain r],
      fun hno => absurd hhead hno⟩

theorem loopBody_loopWritesLive {q : QueueKind} {s : State} (hcreated : (s.queue q).created = true)
    (hfault : s.faulted = false) : (loopBody q s).Ends (LoopWritesLive q s) := by
  have hsame : LoopWritesLive q s s := (KeepsLive.refl s).loopWritesLive q
  unfold loopBody
  split
  · exact (loopStart_keepsLive q s).loopWritesLive q
  · rename_i hphase
    exact loopHead_loopWritesLive ⟨hcreated, hfault, .inl hphase⟩
  · rename_i w hphase
    split
    · rename_i hw
      exact loopHead_loopWritesLive ⟨hcreated, hfault, .inr ⟨w, hphase, hw⟩⟩
    · exact hsame
  · split
    · unfold loopRunJob
      dsimp only
      split
      · rename_i hj
        exact runJobAt_loopWritesLive hj
      · exact hsame
    · split
      · exact (loopEnd_keepsLive q s).loopWritesLive q
      · exact hsame
  · exact hsame

theorem loopStep_loopWritesLive (q : QueueKind) (s : State) :
    LoopWritesLive q s (loopStep q s) := by
  have hsame : LoopWritesLive q s s := (KeepsLive.refl s).loopWritesLive q
  rcases loopStep_cases q s with ⟨_, h⟩ | ⟨hcreated, hfault, h⟩
  · rw [h]; exact hsame
  · rw [h]
    exact commit_of_ends (ignoresBookkeeping_loopWritesLive q s) hsame
      (loopBody_loopWritesLive hcreated ((faulted_eq_false s).2 hfault))

/-! ### The whole step -/

/-- A move other than RESET keeps both live lists, or is a loop's turn, which writes its own. -/
theorem perform_live {m : Move} {s t : State} (hm : m ≠ .reset) (h : perform m s = .next t) :
    KeepsLive s t ∨ ∃ q, m = .loop q ∧ LoopWritesLive q s t := by
  unfold perform at h
  split at h
  · cases m with
    | command w => exact .inl (runCommand_keepsLive w h)
    | pulse d => cases h; exact .inl (pulse_keepsLive d s)
    | edge e mark => cases h; exact .inl (edge_keepsLive e mark s)
    | tick n => cases h; exact .inl (tick_keepsLive n s)
    | reset => exact absurd rfl hm
    | loop q => cases h; exact .inr ⟨q, rfl, loopStep_loopWritesLive q s⟩
  · cases h; exact .inl (.refl s)

/-- HEAD's guard reads nothing that taking a move changes. -/
theorem headEnabled_takeMove (q : QueueKind) (s : State) :
    headEnabled q (takeMove s).2 ↔ headEnabled q s := by
  have hqueue := (takeMove_bookkeepingOnly s).queue q
  have hnow : (takeMove s).2.now = s.now :=
    (congrArg State.now (takeMove_bookkeepingOnly s).record :)
  have hfaulted : (takeMove s).2.faulted = s.faulted := by
    unfold takeMove
    split <;> rfl
  rw [headEnabled, headEnabled, hqueue, hnow, hfaulted]

theorem step_live {s t : State} (hm : (takeMove s).1 ≠ .reset) (h : step s = .next t) :
    KeepsLive s t ∨ ∃ q, (takeMove s).1 = .loop q ∧ LoopWritesLive q s t := by
  have htake := (takeMove_bookkeepingOnly s).keepsLive
  rcases perform_live hm h with hkeeps | ⟨q, hq, hloop⟩
  · exact .inl (htake.trans hkeeps)
  · refine .inr ⟨q, hq, fun r hr => (hloop.other r hr).trans (htake r), fun hhead => ?_⟩
    rw [← htake q]
    exact hloop.ids fun hu => hhead ((headEnabled_takeMove q s).1 hu)

/-- Settles O58: every move but a loop's turn keeps both live lists, and a loop's turn keeps the
other queue's list and, unless it is HEAD, its own ids. -/
theorem onlyOwnLoopWritesLiveList : Obligations.OnlyOwnLoopWritesLiveList := by
  intro q s t hstep hreset
  rcases step_live hreset hstep with hkeeps | ⟨r, hr, hloop⟩
  · exact ⟨fun _ => hkeeps q, fun _ _ => by rw [hkeeps q]⟩
  · refine ⟨fun hother => hloop.other q ?_, fun hown hhead => ?_⟩
    · rintro rfl
      exact hother hr
    · obtain rfl : r = q := by simpa [hr] using hown
      exact hloop.ids hhead

end Sys2Proof.Machine
end

section
/-! PROOFS. The command format field by field (30_encoding.md R80): a word is its fields, a row of
the match and mask table says which of them are fixed, and so a word fits a row exactly when it is
the encoding of the command its fields name (30_encoding.md R91, R95). -/

namespace Sys2Proof

/-! ### The fields of a word -/

/-- CMD[54:48], the seven bits that no command uses (30_encoding.md R80). -/
def reservedField (w : Word) : BitVec 7 := w.extractLsb' 48 7

theorem getLsbD_eq_of_extractLsb'_eq {n lo len : Nat} {v w : BitVec n}
    (h : v.extractLsb' lo len = w.extractLsb' lo len) {i : Nat} (hlo : lo ≤ i)
    (hlen : i < lo + len) : v.getLsbD i = w.getLsbD i := by
  have hbit := congrArg (·.getLsbD (i - lo)) h
  have hlt : i - lo < len := by omega
  simpa [hlt, Nat.add_sub_cancel' hlo] using hbit

/-- The nine fields cover the word. -/
theorem word_eq_iff {v w : Word} : v = w ↔
    opField v = opField w ∧ presentField v = presentField w ∧ v.getLsbD 58 = w.getLsbD 58 ∧
    v.getLsbD 57 = w.getLsbD 57 ∧ v.getLsbD 56 = w.getLsbD 56 ∧ v.getLsbD 55 = w.getLsbD 55 ∧
    reservedField v = reservedField w ∧ handleField v = handleField w ∧
    immField v = immField w := by
  refine ⟨by rintro rfl; simp, ?_⟩
  rintro ⟨hop, hp, hq, hm, hk, hpr, hres, hcb, himm⟩
  apply BitVec.eq_of_getLsbD_eq
  intro i hi
  have hcases : i < 32 ∨ (32 ≤ i ∧ i < 48) ∨ (48 ≤ i ∧ i < 55) ∨ i = 55 ∨ i = 56 ∨ i = 57 ∨
      i = 58 ∨ i = 59 ∨ 60 ≤ i := by omega
  rcases hcases with h | ⟨h, h'⟩ | ⟨h, h'⟩ | rfl | rfl | rfl | rfl | rfl | h
  · exact getLsbD_eq_of_extractLsb'_eq himm i.zero_le (by omega)
  · exact getLsbD_eq_of_extractLsb'_eq hcb h h'
  · exact getLsbD_eq_of_extractLsb'_eq hres h h'
  · exact hpr
  · exact hk
  · exact hm
  · exact hq
  · exact hp
  · exact getLsbD_eq_of_extractLsb'_eq hop h (by omega)

@[simp] theorem reservedField_packCommand (op : BitVec 4) (p q m k pr : Bool) (cb : Handle)
    (imm : BitVec 32) : reservedField (packCommand op p q m k pr cb imm) = 0 := by
  apply BitVec.eq_of_getLsbD_eq
  intro i hi
  simp only [reservedField, packCommand, BitVec.getLsbD_extractLsb', BitVec.getLsbD_append]
  have himm : ¬ 48 + i < 32 := by omega
  have hcb : ¬ 48 + i - 32 < 16 := by omega
  have hres : 48 + i - 32 - 16 < 7 := by omega
  simp [himm, hcb, hres]

theorem packCommand_eq_iff {w : Word} {op : BitVec 4} {p q m k pr : Bool} {cb : Handle}
    {imm : BitVec 32} : packCommand op p q m k pr cb imm = w ↔
      opField w = op ∧ presentField w = p ∧ w.getLsbD 58 = q ∧ w.getLsbD 57 = m ∧
      w.getLsbD 56 = k ∧ w.getLsbD 55 = pr ∧ reservedField w = 0 ∧ handleField w = cb ∧
      immField w = imm := by
  rw [eq_comm, word_eq_iff, opField_packCommand, presentField_packCommand, queueBit_packCommand,
    modeBit_packCommand, kindBit_packCommand, protocolBit_packCommand, reservedField_packCommand,
    handleField_packCommand, immField_packCommand]

@[simp] theorem queueBit_queueField (w : Word) : queueBit (queueField w) = w.getLsbD 58 := by
  unfold queueField
  cases w.getLsbD 58 <;> rfl

@[simp] theorem modeBit_modeField (w : Word) : modeBit (modeField w) = w.getLsbD 57 := by
  unfold modeField
  cases w.getLsbD 57 <;> rfl

@[simp] theorem kindBit_kindField (w : Word) : kindBit (kindField w) = w.getLsbD 56 := by
  unfold kindField
  cases w.getLsbD 56 <;> rfl

@[simp] theorem protocolBit_protocolField (w : Word) :
    protocolBit (protocolField w) = w.getLsbD 55 := by
  unfold protocolField
  cases w.getLsbD 55 <;> rfl

theorem pinField_eq (w : Word) : pinField w = (immField w).setWidth 8 := by
  simp [pinField, immField, BitVec.setWidth_eq_extractLsb']

theorem codeField_eq (w : Word) : codeField w = (immField w).setWidth 9 := by
  simp [codeField, immField, BitVec.setWidth_eq_extractLsb']

theorem selectorField_eq (w : Word) : selectorField w = (immField w).setWidth 4 := by
  simp [selectorField, immField, BitVec.setWidth_eq_extractLsb']

/-! ### What a mask fixes -/

/-- A masked comparison is one of each field. The fields of the mask and of the match are written as
bit ranges, which `simp` evaluates on literals. -/
theorem and_eq_iff {w mask mtch : Word} : w &&& mask = mtch ↔
    opField w &&& mask.extractLsb' 60 4 = mtch.extractLsb' 60 4 ∧
    (presentField w && mask.getLsbD 59) = mtch.getLsbD 59 ∧
    (w.getLsbD 58 && mask.getLsbD 58) = mtch.getLsbD 58 ∧
    (w.getLsbD 57 && mask.getLsbD 57) = mtch.getLsbD 57 ∧
    (w.getLsbD 56 && mask.getLsbD 56) = mtch.getLsbD 56 ∧
    (w.getLsbD 55 && mask.getLsbD 55) = mtch.getLsbD 55 ∧
    reservedField w &&& mask.extractLsb' 48 7 = mtch.extractLsb' 48 7 ∧
    handleField w &&& mask.extractLsb' 32 16 = mtch.extractLsb' 32 16 ∧
    immField w &&& mask.extractLsb' 0 32 = mtch.extractLsb' 0 32 := by
  simp only [word_eq_iff, opField, presentField, reservedField, handleField, immField,
    BitVec.extractLsb'_and, BitVec.getLsbD_and]

theorem and_of_eq_allOnes {n : Nat} (x : BitVec n) {m : BitVec n} (h : m = BitVec.allOnes n) :
    x &&& m = x := by rw [h, BitVec.and_allOnes]

/-- The bits from `n` up are 0 exactly when the low `n` bits are the whole. -/
theorem and_allOnes_shiftLeft_eq_zero_iff {v : Nat} (x : BitVec v) (n : Nat) :
    x &&& (BitVec.allOnes v <<< n) = 0 ↔ x = (x.setWidth n).setWidth v := by
  simp only [BitVec.eq_of_getLsbD_eq_iff]
  refine forall₂_congr fun i hi => ?_
  by_cases hn : i < n
  · simp [hi, hn]
  · have hsub : i - n < v := by omega
    simp [hi, hn, hsub, -BitVec.getLsbD_eq_getElem]

theorem immField_eq_pinField_iff (w : Word) :
    immField w &&& 0xFFFFFF00 = 0 ↔ immField w = (pinField w).setWidth 32 := by
  rw [pinField_eq, ← and_allOnes_shiftLeft_eq_zero_iff]
  rfl

theorem immField_eq_codeField_iff (w : Word) :
    immField w &&& 0xFFFFFE00 = 0 ↔ immField w = (codeField w).setWidth 32 := by
  rw [codeField_eq, ← and_allOnes_shiftLeft_eq_zero_iff]
  rfl

theorem immField_eq_selectorField_iff (w : Word) :
    immField w &&& 0xFFFFFFF0 = 0 ↔ immField w = (selectorField w).setWidth 32 := by
  rw [selectorField_eq, ← and_allOnes_shiftLeft_eq_zero_iff]
  rfl

/-! ### A word fits a row exactly when it encodes what its fields name -/

theorem fits_nop_iff (w : Word) :
    w &&& 0xFFFFFFFFFFFFFFFF = 0x0000000000000000 ↔ encode .nop = w := by
  rw [and_of_eq_allOnes w (by decide), eq_comm]
  rfl

theorem fits_connect_iff (w : Word) : w &&& 0xFF7FFFFFFFFFFF00 = 0x1000000000000000 ↔
    encode (.connect (protocolField w) (pinField w)) = w := by
  rw [and_eq_iff, encode, packCommand_eq_iff, ← immField_eq_pinField_iff]
  simp (disch := decide) [and_of_eq_allOnes]

theorem fits_onButton_iff (w : Word) : w &&& 0xF6FF0000FFFFFE00 = 0x2000000000000000 ↔
    encode (.onButton (presentField w) (kindField w) (handleField w) (codeField w)) = w := by
  rw [and_eq_iff, encode, packCommand_eq_iff, ← immField_eq_codeField_iff]
  simp (disch := decide) [and_of_eq_allOnes]

theorem fits_schedule_iff (w : Word) : w &&& 0xF1FF000000000000 = 0x3000000000000000 ↔
    encode (.schedule (presentField w) (queueField w) (modeField w) (handleField w)
      (immField w)) = w := by
  rw [and_eq_iff, encode, packCommand_eq_iff]
  simp (disch := decide) [and_of_eq_allOnes]

theorem fits_cancel_iff (w : Word) : w &&& 0xFBFFFFFF00000000 = 0x4000000000000000 ↔
    encode (.cancel (queueField w) (immField w)) = w := by
  rw [and_eq_iff, encode, packCommand_eq_iff]
  simp (disch := decide) [and_of_eq_allOnes]

theorem fits_queryDatagram_iff (w : Word) :
    w &&& 0xFFFFFFFFFFFFFFFF = 0x5000000000000000 ↔ encode .queryDatagram = w := by
  rw [and_of_eq_allOnes w (by decide), eq_comm]
  rfl

theorem fits_readState_iff (w : Word) : w &&& 0xFBFFFFFFFFFFFFF0 = 0x6000000000000000 ↔
    encode (.readState (queueField w) (selectorField w)) = w := by
  rw [and_eq_iff, encode, packCommand_eq_iff, ← immField_eq_selectorField_iff]
  simp (disch := decide) [and_of_eq_allOnes]

theorem fits_cbReturn_iff (w : Word) : w &&& 0xFBFFFFFFFFFFFFFF = 0x7000000000000000 ↔
    encode (.cbReturn (queueField w)) = w := by
  rw [and_eq_iff, encode, packCommand_eq_iff]
  simp (disch := decide) [and_of_eq_allOnes]

theorem fits_iff_encode_eq {w : Word} {row : OpcodeRow} {i : Instr}
    (hrow : opcodeRow (opField w) = some row) (hread : readOperands w = some i) :
    w &&& row.mask = row.mtch ↔ encode i = w := by
  unfold readOperands at hread
  unfold opcodeRow at hrow
  split at hread <;> rename_i hop <;> simp only [hop] at hrow <;> cases hread <;> cases hrow
  · exact fits_nop_iff w
  · exact fits_connect_iff w
  · exact fits_onButton_iff w
  · exact fits_schedule_iff w
  · exact fits_cancel_iff w
  · exact fits_queryDatagram_iff w
  · exact fits_readState_iff w
  · exact fits_cbReturn_iff w

/-! ### The decoder on an encoding -/

@[simp] theorem opField_encode (i : Instr) : opField (encode i) = Laws.opcode i := by
  cases i <;> exact opField_packCommand ..

@[simp] theorem readOperands_encode (i : Instr) : readOperands (encode i) = some i := by
  unfold readOperands
  rw [opField_encode]
  cases i with
  | nop => rfl
  | connect pr pin => simp [Laws.opcode, encode, pinField_eq]
  | onButton present kind cb code => simp [Laws.opcode, encode, codeField_eq]
  | schedule present q mode cb delay => simp [Laws.opcode, encode]
  | cancel q id => simp [Laws.opcode, encode]
  | queryDatagram => rfl
  | readState q sel => simp [Laws.opcode, encode, selectorField_eq]
  | cbReturn q => simp [Laws.opcode, encode]

theorem encode_fits {i : Instr} {mtch mask : Word}
    (hrow : opcodeRow (Laws.opcode i) = some { mtch, mask }) : encode i &&& mask = mtch :=
  (fits_iff_encode_eq (by rwa [opField_encode]) (readOperands_encode i)).2 rfl

theorem exists_opcodeRow (i : Instr) : ∃ row, opcodeRow (Laws.opcode i) = some row := by
  cases i <;> exact ⟨_, rfl⟩

theorem operandFault_eq_none_iff (i : Instr) : operandFault i = none ↔ i.wellFormed = true := by
  cases i <;> simp [operandFault, Instr.wellFormed]

/-- The decoder's four checks, in its own order (30_encoding.md R91). -/
theorem decode_eq_ok_iff_row {w : Word} {i : Instr} : decode w = .ok i ↔
    ∃ row, opcodeRow (opField w) = some row ∧ readOperands w = some i ∧
      w &&& row.mask = row.mtch ∧ i.wellFormed = true := by
  unfold decode
  cases opcodeRow (opField w) with
  | none => simp
  | some row =>
    cases readOperands w with
    | none => simp
    | some j =>
      by_cases hfit : w &&& row.mask = row.mtch
      · rw [← operandFault_eq_none_iff]
        by_cases hji : j = i
        · subst hji
          cases hfault : operandFault j <;> simp [hfit, hfault]
        · cases hfault : operandFault j <;> simp [hfit, hfault, hji]
      · simp [hfit]

/-- The legal words are the encodings of the well-formed instructions. -/
theorem decode_eq_ok_iff {w : Word} {i : Instr} :
    decode w = .ok i ↔ i.wellFormed = true ∧ encode i = w := by
  rw [decode_eq_ok_iff_row]
  constructor
  · rintro ⟨row, hrow, hread, hfit, hwf⟩
    exact ⟨hwf, (fits_iff_encode_eq hrow hread).1 hfit⟩
  · rintro ⟨hwf, rfl⟩
    obtain ⟨row, hrow⟩ := exists_opcodeRow i
    exact ⟨row, by rwa [opField_encode], readOperands_encode i, encode_fits hrow, hwf⟩

/-! ### The obligations on the encoding -/

/-- Settles O1, by the description of the legal words. -/
theorem decodeOfEncode : Obligations.DecodeOfEncode :=
  fun _ hwf => decode_eq_ok_iff.2 ⟨hwf, rfl⟩

/-- Settles O2, by the description of the legal words. -/
theorem encodeOfDecode : Obligations.EncodeOfDecode :=
  fun _ _ hdecode => decode_eq_ok_iff.1 hdecode

/-- Settles O3: an encoding fits the row of its opcode, and a word that fits a row encodes the
command its fields name. -/
theorem decodeAcceptsExactlyLegalWords : Obligations.DecodeAcceptsExactlyLegalWords := by
  intro w
  constructor
  · rintro ⟨i, hdecode⟩
    obtain ⟨hwf, rfl⟩ := decode_eq_ok_iff.1 hdecode
    cases i with
    | nop => exact .inl (encode_fits rfl)
    | connect pr pin => exact .inr (.inl (encode_fits rfl))
    | onButton present kind cb code =>
      have hcode : codeField (encode (.onButton present kind cb code)) = code := by
        simp [encode, codeField_eq]
      refine .inr (.inr (.inl ⟨encode_fits rfl, ?_⟩))
      exact (congrArg BitVec.toNat hcode).trans_le (of_decide_eq_true hwf)
    | schedule present q mode cb delay => exact .inr (.inr (.inr (.inl (encode_fits rfl))))
    | cancel q id => exact .inr (.inr (.inr (.inr (.inl (encode_fits rfl)))))
    | queryDatagram => exact .inr (.inr (.inr (.inr (.inr (.inl (encode_fits rfl))))))
    | readState q sel =>
      have hsel : selectorField (encode (.readState q sel)) = sel := by
        simp [encode, selectorField_eq]
      refine .inr (.inr (.inr (.inr (.inr (.inr (.inl ⟨encode_fits rfl, ?_⟩))))))
      exact (congrArg BitVec.toNat hsel).trans_le (Nat.le_of_lt_succ (of_decide_eq_true hwf))
    | cbReturn q => exact .inr (.inr (.inr (.inr (.inr (.inr (.inr (encode_fits rfl)))))))
  · have hlegal {i : Instr} (henc : encode i = w) (hwf : i.wellFormed = true) :
        ∃ i, decode w = .ok i := ⟨i, decode_eq_ok_iff.2 ⟨hwf, henc⟩⟩
    rintro (hfit | hfit | ⟨hfit, hcode⟩ | hfit | hfit | hfit | ⟨hfit, hsel⟩ | hfit)
    · exact hlegal ((fits_nop_iff w).1 hfit) rfl
    · exact hlegal ((fits_connect_iff w).1 hfit) rfl
    · exact hlegal ((fits_onButton_iff w).1 hfit) (decide_eq_true hcode)
    · exact hlegal ((fits_schedule_iff w).1 hfit) rfl
    · exact hlegal ((fits_cancel_iff w).1 hfit) rfl
    · exact hlegal ((fits_queryDatagram_iff w).1 hfit) rfl
    · exact hlegal ((fits_readState_iff w).1 hfit) (decide_eq_true (Nat.lt_succ_of_le hsel))
    · exact hlegal ((fits_cbReturn_iff w).1 hfit) rfl

/-- Settles O4: each word is the encoding of its command. -/
theorem encodingExamplesDecode : Obligations.EncodingExamplesDecode := by
  refine ⟨?_, ?_, ?_, ?_, ?_, ?_, ?_, ?_, ?_, ?_, ?_, ?_, ?_, ?_, ?_⟩ <;>
    exact decode_eq_ok_iff.2 ⟨rfl, rfl⟩

end Sys2Proof
end

section
/-! PROOFS. The clock's step (30_encoding.md R98, 60_exceptions.md R234, R236). -/

namespace Sys2Proof.Machine

theorem step_of_agenda {s : State} {m : Move} {ms : List Move} (h : s.agenda = m :: ms) :
    step s = perform m { s with agenda := ms } := by
  simp only [step, takeMove, h]

theorem perform_tick {n : Nat} (hn : 1 ≤ n) (s : State) :
    perform (.tick n) s = .next (tick n s) := by
  simp only [perform, Move.legal, hn, decide_true, if_true]

theorem tick_of_le {n : Nat} {s : State} (h : s.now + n ≤ maxTime s.params) :
    tick n s = { s with now := s.now + n } := if_pos h

theorem tick_of_gt {n : Nat} {s : State} (h : maxTime s.params < s.now + n) :
    tick n s = { s with refused := true } := if_neg (Nat.not_le_of_lt h)

/-- Settles O48: the step is the tick's own, and the clock's last value decides between its two
outcomes. -/
theorem tickAdvancesClock : Obligations.TickAdvancesClock := by
  intro s n rest hagenda hn
  rw [step_of_agenda hagenda, perform_tick hn]
  exact ⟨fun hle => congrArg Host.Outcome.next (tick_of_le hle),
    fun hgt => congrArg Host.Outcome.next (tick_of_gt hgt)⟩

end Sys2Proof.Machine
end

section
/-! PROOFS. The pulse classifier (40_pulse_classifier.md R110, R111). -/

namespace Sys2Proof.Machine

/-! ### One rule per band: a duration that reached the band's lower end failed every test before it -/

/-- R110 with the thresholds of R8 as numerals, the form `omega` reads. -/
theorem classify_eq (d : Nat) :
    classify d =
      if d < 1600 then .bit false
      else if d < 2700 then .bit true
      else if d < 12500 then .repeatMarker
      else if d < 14500 then .startMarker
      else .noise := rfl

theorem classify_bit_false {d : Nat} (hhi : d < 1600) : classify d = .bit false := by
  rw [classify_eq, if_pos hhi]

theorem classify_bit_true {d : Nat} (hlo : 1600 ≤ d) (hhi : d < 2700) :
    classify d = .bit true := by
  rw [classify_eq, if_neg (by omega), if_pos hhi]

theorem classify_repeatMarker {d : Nat} (hlo : 2700 ≤ d) (hhi : d < 12500) :
    classify d = .repeatMarker := by
  rw [classify_eq, if_neg (by omega), if_neg (by omega), if_pos hhi]

theorem classify_startMarker {d : Nat} (hlo : 12500 ≤ d) (hhi : d < 14500) :
    classify d = .startMarker := by
  rw [classify_eq, if_neg (by omega), if_neg (by omega), if_neg (by omega), if_pos hhi]

theorem classify_noise {d : Nat} (hlo : 14500 ≤ d) : classify d = .noise := by
  rw [classify_eq, if_neg (by omega), if_neg (by omega), if_neg (by omega), if_neg (by omega)]

/-- Settles O21: one rule per band. -/
theorem classifierBands : Obligations.ClassifierBands := fun _ =>
  ⟨classify_bit_false, classify_bit_true, classify_repeatMarker, classify_startMarker,
    classify_noise⟩

/-! ### What a classified pulse writes -/

@[simp] theorem assemble_bit (b : Bool) (s : State) : assemble (.bit b) s = appendBit b s := rfl

@[simp] theorem assemble_repeatMarker (s : State) :
    assemble .repeatMarker s = (.repeatCode, { s with bits := 0 }) := rfl

@[simp] theorem assemble_startMarker (s : State) :
    assemble .startMarker s = (.incomplete, { s with bits := 0 }) := rfl

@[simp] theorem assemble_noise (s : State) :
    assemble .noise s = (.incomplete, { s with bits := 0 }) := rfl

/-- Settles O22: one rule per non-bit class. -/
theorem nonBitClassResetsCounter : Obligations.NonBitClassResetsCounter := fun s =>
  ⟨assemble_repeatMarker s, assemble_startMarker s, assemble_noise s⟩

end Sys2Proof.Machine
end

section
/-! PROOFS. The datagram assembler (41_datagram_assembler.md R120 to R129): one rule per case of
AppendBit, the word a run of shifts leaves, and the run of bits through each half of a datagram. -/

namespace Sys2Proof.Machine

/-! ### One rule per case of AppendBit -/

theorem shiftBit_hiword {b : Bool} {s : State} (hhalf : s.bits.toNat ≤ 16)
    (hsnap : s.bits.toNat ≤ 8 → ¬(s.proto = .keyestudio ∧ b = true)) :
    shiftBit b s = { s with hiword := shiftIn s.hiword b } := by
  by_cases hle : s.bits.toNat ≤ 8
  · rw [shiftBit, if_pos hle, if_neg (hsnap hle)]
  · rw [shiftBit, if_neg hle, if_pos hhalf]

theorem shiftBit_snap {b : Bool} {s : State} (hhalf : s.bits.toNat ≤ 8)
    (hsnap : s.proto = .keyestudio ∧ b = true) :
    shiftBit b s = { s with bits := 9, hiword := 1 } := by
  rw [shiftBit, if_pos hhalf, if_pos hsnap]

theorem shiftBit_loword {b : Bool} {s : State} (hhalf : 16 < s.bits.toNat) :
    shiftBit b s = { s with loword := shiftIn s.loword b } := by
  rw [shiftBit, if_neg (by omega), if_neg (by omega)]

theorem freezeDatagram_incomplete {s : State} (h : s.bits.toNat ≠ 32) :
    freezeDatagram s = (.incomplete, s) := if_neg h

theorem freezeDatagram_datagram {s : State} (h : s.bits.toNat = 32) :
    freezeDatagram s = (.datagram, { s with addr := s.hiword, cmdf := s.loword, bits := 0 }) :=
  if_pos h

/-- R121, R123: a bit of the first half that does not snap. -/
theorem appendBit_hiword {b : Bool} {s : State} (hhalf : s.bits.toNat < 16)
    (hsnap : s.bits.toNat < 8 → ¬(s.proto = .keyestudio ∧ b = true)) :
    appendBit b s =
      (.incomplete, { s with bits := s.bits + 1, hiword := shiftIn s.hiword b }) := by
  have hcount := countBit_bits s (by omega)
  rw [appendBit, shiftBit_hiword (s := countBit s) (by omega) fun hle => hsnap (by omega),
    freezeDatagram_incomplete (by dsimp only; omega)]
  rfl

/-- R122: a 1 among bits 1 to 8 under KEYESTUDIO. -/
theorem appendBit_snap {b : Bool} {s : State} (hhalf : s.bits.toNat < 8)
    (hsnap : s.proto = .keyestudio ∧ b = true) :
    appendBit b s = (.incomplete, { s with bits := 9, hiword := 1 }) := by
  have hcount := countBit_bits s (by omega)
  rw [appendBit, shiftBit_snap (s := countBit s) (by omega) hsnap,
    freezeDatagram_incomplete (by simp)]
  rfl

/-- R124, R126: a bit of the second half before the last. -/
theorem appendBit_loword {b : Bool} {s : State} (hlo : 16 ≤ s.bits.toNat)
    (hhi : s.bits.toNat < 31) :
    appendBit b s =
      (.incomplete, { s with bits := s.bits + 1, loword := shiftIn s.loword b }) := by
  have hcount := countBit_bits s (by omega)
  rw [appendBit, shiftBit_loword (s := countBit s) (by omega),
    freezeDatagram_incomplete (by dsimp only; omega)]
  rfl

/-- R125: the 32nd bit. -/
theorem appendBit_freeze {b : Bool} {s : State} (hlast : s.bits.toNat = 31) :
    appendBit b s =
      (.datagram, { s with
        bits := 0, loword := shiftIn s.loword b, addr := s.hiword,
        cmdf := shiftIn s.loword b }) := by
  have hcount := countBit_bits s (by omega)
  rw [appendBit, shiftBit_loword (s := countBit s) (by omega),
    freezeDatagram_datagram (by dsimp only; omega)]
  rfl

/-- A shift doubles the word and adds the bit; the top bit falls off. -/
theorem shiftIn_eq (a : BitVec 16) (b : Bool) :
    shiftIn a b = BitVec.ofNat 16 (a.toNat * 2 + b.toNat) := by
  have hb : b.toNat < 2 := b.toNat_lt
  have hdisjoint := Nat.two_pow_add_eq_or_of_lt (i := 1) hb (a.toNat % 2 ^ 15)
  have htop : a.toNat <<< 1 % 2 ^ 16 = 2 ^ 1 * (a.toNat % 2 ^ 15) := by
    rw [Nat.shiftLeft_eq]
    omega
  have hbit : ((BitVec.ofBool b).setWidth 16).toNat = b.toNat := by cases b <;> rfl
  apply BitVec.eq_of_toNat_eq
  rw [shiftIn, BitVec.toNat_or, BitVec.toNat_shiftLeft, htop, hbit, ← hdisjoint,
    BitVec.toNat_ofNat]
  omega

theorem shiftIn_ofNat (n : Nat) (b : Bool) :
    shiftIn (BitVec.ofNat 16 n) b = BitVec.ofNat 16 (2 * n + b.toNat) := by
  apply BitVec.eq_of_toNat_eq
  rw [shiftIn_eq, BitVec.toNat_ofNat, BitVec.toNat_ofNat, BitVec.toNat_ofNat]
  omega

/-- Settles O23: one rule per case, with the counter and the shift as numbers. -/
theorem appendBitSteps : Obligations.AppendBitSteps := by
  rintro b s n rfl hn
  have hcount : BitVec.ofNat 6 (s.bits.toNat + 1) = s.bits + 1 := by simp [BitVec.ofNat_add]
  simp only [hcount, ← shiftIn_eq]
  refine ⟨fun h8 hsnap => ?_, fun h8 hsnap => ?_, fun h8 h16 => ?_, fun h16 h32 => ?_,
    fun h32 => ?_⟩
  · exact appendBit_hiword (by omega) fun _ => hsnap
  · exact appendBit_snap (by omega) hsnap
  · exact appendBit_hiword (by omega) fun hlt => absurd hlt (by omega)
  · exact appendBit_loword (by omega) (by omega)
  · exact appendBit_freeze (by omega)

/-! ### The word that a run of shifts leaves -/

/-- The number `n` followed by the bits of `bs`, most significant first. -/
def appendedBits (n : Nat) (bs : List Bool) : Nat := bs.foldl (fun m b => 2 * m + b.toNat) n

theorem receivedWord_eq (bs : List Bool) :
    receivedWord bs = BitVec.ofNat 16 (appendedBits 0 bs) := rfl

theorem receivedWord_true_cons (bs : List Bool) :
    receivedWord (true :: bs) = BitVec.ofNat 16 (appendedBits 1 bs) := rfl

theorem appendedBits_cons (n : Nat) (b : Bool) (bs : List Bool) :
    appendedBits n (b :: bs) = appendedBits (2 * n + b.toNat) bs := rfl

theorem appendedBits_eq_add (n : Nat) (bs : List Bool) :
    appendedBits n bs = n * 2 ^ bs.length + appendedBits 0 bs := by
  induction bs generalizing n with
  | nil => simp [appendedBits]
  | cons b bs ih =>
    rw [appendedBits_cons, appendedBits_cons, ih, ih (2 * 0 + b.toNat), List.length_cons]
    ring

theorem appendedBits_zero_lt (bs : List Bool) : appendedBits 0 bs < 2 ^ bs.length := by
  induction bs with
  | nil => simp [appendedBits]
  | cons b bs ih =>
    have hb : (2 * 0 + b.toNat) * 2 ^ bs.length ≤ 1 * 2 ^ bs.length :=
      Nat.mul_le_mul_right _ (by have := b.toNat_le; omega)
    rw [appendedBits_cons, appendedBits_eq_add, List.length_cons, pow_succ]
    omega

theorem foldl_shiftIn_ofNat (n : Nat) (bs : List Bool) :
    bs.foldl shiftIn (BitVec.ofNat 16 n) = BitVec.ofNat 16 (appendedBits n bs) := by
  induction bs generalizing n with
  | nil => rfl
  | cons b bs ih => rw [List.foldl_cons, shiftIn_ofNat, ih, appendedBits_cons]

/-- Sixteen shifts push out whatever the accumulator held (R129). -/
theorem foldl_shiftIn_sixteen (a : BitVec 16) {bs : List Bool} (hlen : bs.length = 16) :
    bs.foldl shiftIn a = receivedWord bs := by
  have hfold := foldl_shiftIn_ofNat a.toNat bs
  rw [BitVec.ofNat_toNat, BitVec.setWidth_eq] at hfold
  rw [hfold, receivedWord_eq, appendedBits_eq_add, hlen]
  apply BitVec.eq_of_toNat_eq
  simp

/-- The shifts that follow the snap, which leaves HIWORD = 1 (R122). -/
theorem foldl_shiftIn_one (bs : List Bool) :
    bs.foldl shiftIn 1 = receivedWord (true :: bs) := foldl_shiftIn_ofNat 1 bs

/-- A one and seven bits lie in the low byte and set its top bit (R129). -/
theorem receivedWord_true_cons_bounds {bs : List Bool} (hlen : bs.length = 7) :
    (receivedWord (true :: bs)).toNat < 256 ∧ 128 ≤ (receivedWord (true :: bs)).toNat := by
  have hlt := appendedBits_zero_lt bs
  have hval := appendedBits_eq_add 1 bs
  rw [hlen] at hlt hval
  rw [receivedWord_true_cons, BitVec.toNat_ofNat]
  omega

/-! ### Runs of bits -/

theorem feedBits_cons {b : Bool} {bs : List Bool} {r : PulseResult} {rs : List PulseResult}
    {s t u : State} (hbit : appendBit b s = (r, t)) (hrest : feedBits bs t = (rs, u)) :
    feedBits (b :: bs) s = (r :: rs, u) := by
  rw [feedBits, hbit, hrest]

theorem feedBits_append {xs ys : List Bool} {rs qs : List PulseResult} {s t u : State}
    (hfirst : feedBits xs s = (rs, t)) (hrest : feedBits ys t = (qs, u)) :
    feedBits (xs ++ ys) s = (rs ++ qs, u) := by
  induction xs generalizing s rs with
  | nil =>
    obtain ⟨rfl, rfl⟩ := Prod.mk.inj hfirst
    exact hrest
  | cons b xs ih =>
    obtain ⟨rfl, rfl⟩ := Prod.mk.inj hfirst
    exact feedBits_cons rfl (ih rfl)

/-- A run of bits without a snap inside the first half shifts into HIWORD. -/
theorem feedBits_hiword {bs : List Bool} {s : State} (hlen : s.bits.toNat + bs.length ≤ 16)
    (hsnap : ∀ b ∈ bs, s.bits.toNat < 8 → ¬(s.proto = .keyestudio ∧ b = true)) :
    feedBits bs s =
      (List.replicate bs.length .incomplete,
        { s with bits := s.bits + BitVec.ofNat 6 bs.length,
                 hiword := bs.foldl shiftIn s.hiword }) := by
  induction bs generalizing s with
  | nil => simp [feedBits]
  | cons b bs ih =>
    rw [List.length_cons] at hlen
    have hcount : (s.bits + 1).toNat = s.bits.toNat + 1 := countBit_bits s (by omega)
    have hbits :
        s.bits + BitVec.ofNat 6 (bs.length + 1) = s.bits + 1 + BitVec.ofNat 6 bs.length := by
      rw [Nat.add_comm, BitVec.ofNat_add, ← BitVec.add_assoc]
      rfl
    have hrest : ∀ c ∈ bs, (s.bits + 1).toNat < 8 → ¬(s.proto = .keyestudio ∧ c = true) :=
      fun c hc hlt => hsnap c (List.mem_cons_of_mem b hc) (by omega)
    rw [List.length_cons, hbits]
    exact feedBits_cons (appendBit_hiword (by omega) (hsnap b List.mem_cons_self))
      (ih (by dsimp only; omega) hrest)

/-- A run of bits through the end of the second half shifts into LOWORD, and its last bit freezes
the datagram. -/
theorem feedBits_to_datagram {bs : List Bool} {s : State} (hne : bs ≠ [])
    (hlo : 16 ≤ s.bits.toNat) (hlen : s.bits.toNat + bs.length = 32) :
    feedBits bs s =
      (List.replicate (bs.length - 1) .incomplete ++ [.datagram],
        { s with
          bits := 0, loword := bs.foldl shiftIn s.loword, addr := s.hiword,
          cmdf := bs.foldl shiftIn s.loword }) := by
  induction bs generalizing s with
  | nil => exact absurd rfl hne
  | cons b bs ih =>
    rw [List.length_cons] at hlen
    cases bs with
    | nil => exact feedBits_cons (appendBit_freeze (by simpa using hlen)) rfl
    | cons c cs =>
      rw [List.length_cons] at hlen
      have hcount : (s.bits + 1).toNat = s.bits.toNat + 1 := countBit_bits s (by omega)
      exact feedBits_cons (appendBit_loword hlo (by omega))
        (ih (List.cons_ne_nil c cs) (by dsimp only; omega)
          (by dsimp only [List.length_cons]; omega))

/-- The second half from its start: the datagram is HIWORD and the last sixteen bits. -/
theorem feedBits_second_half {bs : List Bool} {s : State} (hlen : bs.length = 16)
    (hbits : s.bits = 16) :
    feedBits bs s =
      (List.replicate 15 .incomplete ++ [.datagram],
        { s with
          bits := 0, loword := receivedWord bs, addr := s.hiword, cmdf := receivedWord bs }) := by
  have hne : bs ≠ [] := List.ne_nil_of_length_pos (by omega)
  rw [feedBits_to_datagram hne (by simp [hbits]) (by simp [hbits, hlen]), hlen,
    foldl_shiftIn_sixteen _ hlen]

/-- Settles O24: the first sixteen bits fill HIWORD, the last sixteen LOWORD. -/
theorem thirtyTwoBitsMakeDatagram : Obligations.ThirtyTwoBitsMakeDatagram := by
  intro bs s hlen hbits hproto
  have hfirst : (bs.take 16).length = 16 := by simp [hlen]
  have hsecond : (bs.drop 16).length = 16 := by simp [hlen]
  have hhalf := feedBits_hiword (bs := bs.take 16) (s := s) (by simp [hbits, hfirst])
    (by simp [hproto])
  rw [hfirst, foldl_shiftIn_sixteen _ hfirst] at hhalf
  have hrun := feedBits_append hhalf (feedBits_second_half hsecond (by rw [hbits]; rfl))
  rwa [List.take_append_drop] at hrun

/-- The snap and 23 bits more: seven complete HIWORD, sixteen fill LOWORD (R122). -/
theorem feedBits_from_snap {bs : List Bool} {s : State} (hlen : bs.length = 23)
    (hbits : s.bits.toNat < 8) (hproto : s.proto = .keyestudio) :
    feedBits (true :: bs) s =
      (List.replicate 23 .incomplete ++ [.datagram],
        { s with
          bits := 0
          hiword := receivedWord (true :: bs.take 7)
          loword := receivedWord (bs.drop 7)
          addr := receivedWord (true :: bs.take 7)
          cmdf := receivedWord (bs.drop 7) }) := by
  have hfirst : (bs.take 7).length = 7 := by simp [hlen]
  have hsecond : (bs.drop 7).length = 16 := by simp [hlen]
  have hhalf := feedBits_hiword (bs := bs.take 7) (s := { s with bits := 9, hiword := 1 })
    (by simp [hfirst]) (by simp)
  rw [hfirst, foldl_shiftIn_one] at hhalf
  have hrun := feedBits_cons (appendBit_snap hbits ⟨hproto, rfl⟩)
    (feedBits_append hhalf (feedBits_second_half hsecond rfl))
  rwa [List.take_append_drop] at hrun

/-- Settles O25: zeros keep the counter below 8, so the one snaps it, whatever HIWORD holds. -/
theorem keyestudioResynchronises : Obligations.KeyestudioResynchronises := by
  intro zeros bs s hzeros hlen hbits hproto
  have hfirst : (bs.take 7).length = 7 := by simp [hlen]
  have hlead := feedBits_hiword (bs := List.replicate zeros false) (s := s)
    (by simp [hbits]; omega) (by simp)
  rw [List.length_replicate] at hlead
  have hrun := feedBits_append hlead
    (feedBits_from_snap hlen (by simp [hbits]; omega) hproto)
  rw [← List.append_assoc, List.replicate_append_replicate] at hrun
  exact ⟨hrun, receivedWord_true_cons_bounds hfirst⟩

end Sys2Proof.Machine
end

section
/-! PROOFS. The decoder state machine (42_decoder_state_machine.md R130 to R134): when the pulse path
listens, what a pulse and an edge then do, and what an Incomplete result writes. -/

namespace Sys2Proof.Machine

/-! ### When the pulse path listens -/

theorem listening_eq_true (s : State) :
    s.listening = true ↔ s.conn = true ∧ s.faultCause = none := by
  rw [State.listening, Bool.and_eq_true, Bool.not_eq_true', faulted_eq_false]

theorem listening_eq_false (s : State) :
    s.listening = false ↔ s.conn = false ∨ s.faultCause ≠ none := by
  rw [State.listening, Bool.and_eq_false_iff, Bool.not_eq_false', faulted_eq_true]

theorem pulse_of_listening (d : Nat) {s : State} (h : s.listening = true) :
    pulse d s = commit s (pulseBody d s) := if_pos h

theorem pulse_of_not_listening (d : Nat) {s : State} (h : s.listening = false) :
    pulse d s = s := if_neg (by simp [h])

theorem edge_of_not_listening (e : EdgeKind) (t : Nat) {s : State} (h : s.listening = false) :
    edge e t s = s := if_neg (by simp [h])

/-- A deaf path ignores a duration the port cannot carry too, so the port's range does not matter. -/
theorem perform_pulse_of_not_listening (d : Nat) {s : State} (h : s.listening = false) :
    perform (.pulse d) s = .next s := by
  simp only [perform, pulse_of_not_listening d h, ite_self]

theorem perform_edge_of_not_listening (e : EdgeKind) (t : Nat) {s : State}
    (h : s.listening = false) : perform (.edge e t) s = .next s := by
  simp only [perform, edge_of_not_listening e t h, ite_self]

/-- Settles O26: taking the move off the agenda leaves CONN and FAULT_CAUSE, so the path is still
deaf when the event comes to it. -/
theorem disabledPulsePathIgnoresEvents : Obligations.DisabledPulsePathIgnoresEvents := by
  intro s rest hoff
  have hdeaf : { s with agenda := rest }.listening = false := (listening_eq_false _).2 hoff
  exact ⟨fun d hagenda =>
      (step_of_agenda hagenda).trans (perform_pulse_of_not_listening d hdeaf),
    fun e t hagenda =>
      (step_of_agenda hagenda).trans (perform_edge_of_not_listening e t hdeaf)⟩

/-! ### An Incomplete result -/

/-- An Incomplete bit is not frozen, so ADDR and CMDF stay (41_datagram_assembler.md R126). -/
theorem appendBit_incomplete {b : Bool} {s : State} (h : (appendBit b s).1 = .incomplete) :
    (appendBit b s).2 = { s with
      bits := (appendBit b s).2.bits
      hiword := (appendBit b s).2.hiword
      loword := (appendBit b s).2.loword } := by
  have hwrites := shiftBit_writes b (countBit s)
  unfold appendBit at h ⊢
  generalize shiftBit b (countBit s) = u at h hwrites ⊢
  by_cases hlast : u.bits.toNat = 32
  · rw [freezeDatagram_datagram hlast] at h
    cases h
  · rw [freezeDatagram_incomplete hlast]
    exact hwrites

theorem assemble_incomplete {c : PulseClass} {s : State}
    (h : (assemble c s).1 = .incomplete) :
    (assemble c s).2 = { s with
      bits := (assemble c s).2.bits
      hiword := (assemble c s).2.hiword
      loword := (assemble c s).2.loword } := by
  cases c with
  | bit b => exact appendBit_incomplete h
  | repeatMarker => cases h
  | startMarker => rfl
  | noise => rfl

theorem pulseBody_incomplete {d : Nat} {s : State}
    (h : (assemble (classify d) s).1 = .incomplete) :
    pulseBody d s = .done () (assemble (classify d) s).2 := by
  rw [pulseBody, h, dispatch]

/-- Settles O27: an Incomplete result is the assembler's writes alone; any other is committed as
its dispatch ended. -/
theorem incompletePulseDispatchesNothing : Obligations.IncompletePulseDispatchesNothing := by
  intro d s hconn hfault
  have hpulse := pulse_of_listening d ((listening_eq_true s).2 ⟨hconn, hfault⟩)
  refine ⟨fun hincomplete => ?_, fun _ => ?_⟩
  · rw [hpulse, pulseBody_incomplete hincomplete, commit_done]
    exact assemble_incomplete hincomplete
  · rw [hpulse, pulseBody]
    cases dispatch (assemble (classify d) s).1 (assemble (classify d) s).2 with
    | done _ t => rfl
    | stopped t => rfl
    | refused r => rfl

/-! ### Edges -/

theorem edge_markEnding {e : EdgeKind} (t : Nat) {s : State} (hs : s.listening = true)
    (he : endsMark s.params.markLevel e = true) : edge e t s = { s with markLatch := t } := by
  rw [edge, if_pos hs, if_pos he]

theorem edge_spaceEnding {e : EdgeKind} (t : Nat) {s : State} (hs : s.listening = true)
    (he : endsMark s.params.markLevel e = false) :
    edge e t s = pulse (markPlusSpace s.params s.markLatch t) s := by
  rw [edge, if_pos hs, he, pulse_of_listening _ hs]
  rfl

/-- Settles O28: FALL ends the mark of a high mark level, RISE that of a low one. -/
theorem edgesPairIntoPulses : Obligations.EdgesPairIntoPulses := by
  intro t s hconn hfault
  have hs := (listening_eq_true s).2 ⟨hconn, hfault⟩
  exact ⟨fun hhigh => edge_markEnding t hs (by rw [hhigh]; rfl),
    fun hlow => edge_markEnding t hs (by rw [hlow]; rfl),
    fun hhigh => edge_spaceEnding t hs (by rw [hhigh]; rfl),
    fun hlow => edge_spaceEnding t hs (by rw [hlow]; rfl)⟩

end Sys2Proof.Machine
end

section
/-! PROOFS. The button dispatcher and the repeat-timeout tracker
(43_button_dispatch_repeat_timeout.md R140 to R153): one rule per way a notification can end, then
the Datagram and the repeat-check as sequences of notifications. A first cause may stand already,
so these rules name FAULT_CAUSE by `firstCause` and ask for no unfaulted block. -/

namespace Sys2Proof.Machine

/-! ### Lookup -/

theorem eq_buttonCode_iff (x : ButtonCode) (c : BitVec 8) :
    x = buttonCode c ↔ x.toNat = c.toNat := by
  have hwide : (buttonCode c).toNat = c.toNat := by
    rw [buttonCode, BitVec.toNat_setWidth]
    omega
  rw [← BitVec.toNat_inj, hwide]

/-- R148: everything before the binding found matches neither way. -/
theorem lookupBinding_eq_some_iff {bs : List Binding} {c : BitVec 8} {b : Binding} :
    lookupBinding bs c = some b ↔
      ∃ before after, bs = before ++ b :: after ∧
        (b.code.toNat = c.toNat ∨ b.code = 0x100) ∧
        ∀ x ∈ before, x.code.toNat ≠ c.toNat ∧ x.code ≠ 0x100 := by
  simp only [lookupBinding, List.find?_eq_some_iff_append, eq_buttonCode_iff, Config.wildcard,
    Bool.not_eq_true', decide_eq_true_eq, decide_eq_false_iff_not, not_or]
  constructor
  · rintro ⟨hmatch, before, after, hbs, hbefore⟩
    exact ⟨before, after, hbs, hmatch, hbefore⟩
  · rintro ⟨before, after, hbs, hmatch, hbefore⟩
    exact ⟨hmatch, before, after, hbs, hbefore⟩

theorem lookupBinding_eq_none_iff {bs : List Binding} {c : BitVec 8} :
    lookupBinding bs c = none ↔ ∀ x ∈ bs, x.code.toNat ≠ c.toNat ∧ x.code ≠ 0x100 := by
  simp only [lookupBinding, List.find?_eq_none, eq_buttonCode_iff, Config.wildcard,
    decide_eq_true_eq, not_or]

/-- Settles O30, by the two rules of Lookup. -/
theorem lookupIsFirstMatch : Obligations.LookupIsFirstMatch := fun _ _ =>
  ⟨fun _ => lookupBinding_eq_some_iff, lookupBinding_eq_none_iff⟩

/-! ### Enqueuing a callback -/

theorem raiseFault_firstCause {α : Type} (c : FaultCause) (s : State) :
    (raiseFault c s : Body α) = .stopped { s with faultCause := firstCause s c } := by
  cases hcause : s.faultCause with
  | none => rw [raiseFault_eq c s hcause, firstCause, if_pos hcause]
  | some first =>
    have hkept : firstCause s c = s.faultCause := if_neg (by simp [hcause])
    rw [hkept]
    simp only [raiseFault, hcause]
    rw [← hcause]

theorem usedQueue_of_created {Q : Queue} (h : Q.created = true) : usedQueue Q = Q := if_pos h

@[simp] theorem usedQueue_created (Q : Queue) : (usedQueue Q).created = true := firstUse_created Q

@[simp] theorem usedQueue_ins (Q : Queue) : (usedQueue Q).ins = Q.ins := firstUse_ins Q

/-- Only a Repeat job can shrink the polling interval (44_scheduler.md R163). -/
theorem shrinkPoll_once (q : QueueKind) (delay : Int) (s : State) :
    shrinkPoll q .once delay s = s := by
  rw [shrinkPoll, shrunkPoll_once]
  exact setQueue_queue s q

/-- After an enqueue that found room: the id drawn and the job of handle `h` at the tail of INS[CBQ]
(R149). -/
def withCallbackJob (h : Handle) (s : State) : State :=
  { s with
    issued := s.issued ++ [drawnId s]
    choices := s.choices + 1
    cbq := { usedQueue s.cbq with ins := s.cbq.ins ++ [callbackJob (drawnId s) h] } }

/-- After an enqueue that found INS[CBQ] full: the id drawn, the queue created, and the fault
(60_exceptions.md R233). -/
def insOverflowed (s : State) : State :=
  { s with
    issued := s.issued ++ [drawnId s]
    choices := s.choices + 1
    cbq := usedQueue s.cbq
    faultCause := firstCause s .insOverflow }

/-- The draw comes before the append, so exhaustion is found before a full buffer. -/
theorem enqueueCallback_of_present {b : Binding} (hb : b.present = true) (s : State) :
    enqueueCallback b s =
      if 2 ^ s.params.wId ≤ s.issued.length + 1 then .refused .idExhausted
      else if s.params.insCap ≤ s.cbq.ins.length then .stopped (insOverflowed s)
      else .done () (withCallbackJob b.handle s) := by
  rw [enqueueCallback, internalSchedule, if_neg (by simp [hb]), drawId_eq]
  by_cases hids : 2 ^ s.params.wId ≤ s.issued.length + 1
  · rw [if_pos hids, if_neg (by simpa [ensureQueue] using hids)]
    rfl
  · rw [if_neg hids, if_pos (by simpa [ensureQueue] using hids), andThen_done, appendIns]
    by_cases hfull : s.params.insCap ≤ s.cbq.ins.length
    · rw [if_pos hfull, if_pos (by simpa [ensureQueue] using hfull), raiseFault_firstCause]
      rfl
    · rw [if_neg hfull, if_neg (by simpa [ensureQueue] using hfull)]
      simp only [andThen_done, shrinkPoll_once]
      rw [withCallbackJob, ← usedQueue_ins s.cbq]
      rfl

/-! ### The ways a notification can end -/

section
variable {bs : List Binding} {c : BitVec 8} {h : Handle} {s : State}

theorem notifyBinding_of_noCallback (hno : noCallback bs c) :
    notifyBinding bs c s = .done () s := by
  rcases notifyBinding_cases bs c s with ⟨hdone, _⟩ | ⟨b, hb, hpresent, _⟩
  · exact hdone
  · exact absurd ((hno b hb).symm.trans hpresent) (by decide)

theorem notifyBinding_of_hasCallback (hcb : hasCallback bs c h) :
    notifyBinding bs c s =
      if 2 ^ s.params.wId ≤ s.issued.length + 1 then .refused .idExhausted
      else if s.params.insCap ≤ s.cbq.ins.length then .stopped (insOverflowed s)
      else .done () (withCallbackJob h s) := by
  obtain ⟨b, hb, hpresent, rfl⟩ := hcb
  rw [notifyBinding, hb]
  exact enqueueCallback_of_present hpresent s

theorem notifyBinding_refuses (hcb : hasCallback bs c h) (hids : noFreshId s s.issued.length) :
    notifyBinding bs c s = .refused .idExhausted :=
  (notifyBinding_of_hasCallback hcb).trans (if_pos hids)

theorem notifyBinding_overflows (hcb : hasCallback bs c h) (hids : ¬ noFreshId s s.issued.length)
    (hfull : s.params.insCap ≤ s.cbq.ins.length) :
    notifyBinding bs c s = .stopped (insOverflowed s) :=
  (notifyBinding_of_hasCallback hcb).trans ((if_neg hids).trans (if_pos hfull))

theorem notifyBinding_enqueues (hcb : hasCallback bs c h) (hids : ¬ noFreshId s s.issued.length)
    (hroom : s.cbq.ins.length < s.params.insCap) :
    notifyBinding bs c s = .done () (withCallbackJob h s) :=
  (notifyBinding_of_hasCallback hcb).trans ((if_neg hids).trans (if_neg (Nat.not_le.2 hroom)))

end

/-! ### The repeat-check -/

theorem repeatCheck_of_timeout {s : State} (hactive : s.acValid = true)
    (hlate : s.deadline < s.now) :
    repeatCheck s = (notifyBinding s.released s.acCode s).andThen fun _ t =>
      .done () { t with acValid := false, acCode := 0, bits := 0 } := if_pos ⟨hactive, hlate⟩

/-- Settles O35: a timeout is one notification, and ACTIVE and BITS are reset only after it is
done. -/
theorem repeatCheckReleasesAfterDeadline : Obligations.RepeatCheckReleasesAfterDeadline := by
  intro s
  refine ⟨fun hidle => ?_, fun hactive hlate => ?_⟩
  · rw [repeatCheck, if_neg]
    rintro ⟨hactive, hlate⟩
    rcases hidle with hnone | hearly
    · exact absurd (hnone.symm.trans hactive) (by decide)
    · omega
  rw [repeatCheck_of_timeout hactive hlate]
  refine ⟨fun hno => ?_, fun h hcb => ⟨fun hids => ?_, fun hids hroom => ?_, fun hids hfull => ?_⟩⟩
  · rw [notifyBinding_of_noCallback hno, andThen_done]
  · rw [notifyBinding_refuses hcb hids, andThen_refused]
  · rw [notifyBinding_enqueues hcb hids hroom, andThen_done]
    rfl
  · rw [notifyBinding_overflows hcb hids hfull, andThen_stopped]
    rfl

/-! ### The press of a command -/

/-- The last part of a change of command: the press is notified, and then ACTIVE is updated
(R145, R146). -/
def pressCommand (new : BitVec 8) (s : State) : Body Unit :=
  (notifyBinding s.pressed new s).andThen fun _ t =>
    .done () { t with acValid := true, acCode := new }

theorem changeCommand_of_same {s : State} (hactive : s.acValid = true) :
    changeCommand s.acCode s = .done () s := if_pos ⟨hactive, rfl⟩

theorem changeCommand_of_none {s : State} (hidle : s.acValid = false) (new : BitVec 8) :
    changeCommand new s = pressCommand new s := by
  rw [changeCommand, if_neg (by simp [hidle]), releaseActive, if_neg (by simp [hidle]),
    andThen_done]
  rfl

theorem changeCommand_of_other {s : State} {new : BitVec 8} (hactive : s.acValid = true)
    (hother : s.acCode ≠ new) :
    changeCommand new s =
      (notifyBinding s.released s.acCode s).andThen fun _ t => pressCommand new t := by
  rw [changeCommand, if_neg (by simp [hother]), releaseActive, if_pos hactive]
  rfl

section
variable {new : BitVec 8} {h : Handle} {s : State}

theorem pressCommand_of_noCallback (hno : noCallback s.pressed new) :
    pressCommand new s = .done () { s with acValid := true, acCode := new } := by
  rw [pressCommand, notifyBinding_of_noCallback hno, andThen_done]

theorem pressCommand_refuses (hcb : hasCallback s.pressed new h)
    (hids : noFreshId s s.issued.length) : pressCommand new s = .refused .idExhausted := by
  rw [pressCommand, notifyBinding_refuses hcb hids, andThen_refused]

theorem pressCommand_overflows (hcb : hasCallback s.pressed new h)
    (hids : ¬ noFreshId s s.issued.length) (hfull : s.params.insCap ≤ s.cbq.ins.length) :
    pressCommand new s = .stopped (insOverflowed s) := by
  rw [pressCommand, notifyBinding_overflows hcb hids hfull, andThen_stopped]

theorem pressCommand_enqueues (hcb : hasCallback s.pressed new h)
    (hids : ¬ noFreshId s s.issued.length) (hroom : s.cbq.ins.length < s.params.insCap) :
    pressCommand new s =
      .done () { withCallbackJob h s with acValid := true, acCode := new } := by
  rw [pressCommand, notifyBinding_enqueues hcb hids hroom, andThen_done]

end

/-! ### A Datagram -/

/-- What every Datagram writes before it looks at ACTIVE (R141, R142). -/
def datagramSeen (s : State) : State := { s with deadline := s.now + 120, newdg := true }

theorem newCommand_eq {cmdf : BitVec 16} {new : BitVec 8} (hnew : new.toNat = cmdf.toNat / 256) :
    newCommand cmdf = new := by
  apply BitVec.eq_of_toNat_eq
  rw [newCommand, BitVec.extractLsb'_toNat, Nat.shiftRight_eq_div_pow, hnew]
  omega

theorem dispatch_datagram {s : State} {new : BitVec 8} (hnew : new.toNat = s.cmdf.toNat / 256)
    (hclock : s.now + 120 ≤ maxTime s.params) :
    dispatch .datagram s = changeCommand new (datagramSeen s) := by
  rw [dispatch, refreshDeadline_eq, if_pos hclock, andThen_done]
  exact congrArg (changeCommand · (datagramSeen s)) (newCommand_eq hnew)

/-- R141, R236: the refresh is the first part of any dispatch, so past the clock's range nothing
of it happens. -/
theorem dispatch_of_clockWrap {r : PulseResult} {s : State} (hr : r ≠ .incomplete)
    (hclock : maxTime s.params < s.now + 120) : dispatch r s = .refused .clockWrap := by
  have hrefresh : refreshDeadline s = .refused .clockWrap := by
    rw [refreshDeadline_eq, if_neg (Nat.not_le.2 hclock)]
  cases r with
  | datagram => rw [dispatch, hrefresh, andThen_refused]
  | repeatCode => exact hrefresh
  | incomplete => exact absurd rfl hr

/-- Settles O31: the two writes of every Datagram leave ACTIVE, so it still equals the command. -/
theorem unchangedCommandEmitsNothing : Obligations.UnchangedCommandEmitsNothing := by
  intro s hactive hsame hclock
  rw [dispatch_datagram hsame hclock]
  exact changeCommand_of_same (s := datagramSeen s) hactive

/-- With no command active a Datagram is its press (R145). -/
theorem dispatch_firstPress {s : State} {new : BitVec 8} (hidle : s.acValid = false)
    (hnew : new.toNat = s.cmdf.toNat / 256) (hclock : s.now + 120 ≤ maxTime s.params) :
    dispatch .datagram s = pressCommand new (datagramSeen s) :=
  (dispatch_datagram hnew hclock).trans (changeCommand_of_none (s := datagramSeen s) hidle new)

/-- Settles O32, by the ways its press can end. -/
theorem firstPressActivatesCommand : Obligations.FirstPressActivatesCommand := by
  intro s new hidle hnew hclock
  rw [dispatch_firstPress hidle hnew hclock]
  exact ⟨fun hno => pressCommand_of_noCallback (s := datagramSeen s) hno, fun h hcb =>
    ⟨fun hids => pressCommand_refuses (s := datagramSeen s) hcb hids,
      fun hids hroom => pressCommand_enqueues (s := datagramSeen s) hcb hids hroom⟩⟩

/-- Settles O34: in an unfaulted block INS_OVERFLOW is the first cause. -/
theorem pressFaultsOnFullInsertBuffer : Obligations.PressFaultsOnFullInsertBuffer := by
  intro s new b hunfaulted hidle hnew hclock hlookup hpresent hids hfull
  have hcause : firstCause s .insOverflow = some .insOverflow := if_pos hunfaulted
  rw [dispatch_firstPress hidle hnew hclock, ← hcause]
  exact pressCommand_overflows (s := datagramSeen s) ⟨b, hlookup, hpresent, rfl⟩
    (Nat.not_le.2 hids) hfull

/-! ### A change of command -/

theorem noFreshId_withCallbackJob (h : Handle) (s : State) :
    noFreshId (withCallbackJob h s) (withCallbackJob h s).issued.length ↔
      noFreshId s (s.issued.length + 1) := by
  simp [noFreshId, withCallbackJob]

theorem usedQueue_withCallbackJob (h : Handle) (s : State) :
    usedQueue (withCallbackJob h s).cbq = (withCallbackJob h s).cbq :=
  usedQueue_of_created (usedQueue_created s.cbq)

/-- The first enqueue created CBQ, so the second one finds it in use and the jobs stand in order. -/
theorem withCallbackJob_twice (h1 h2 : Handle) (s : State) :
    withCallbackJob h2 (withCallbackJob h1 s) = { s with
      issued := s.issued ++ [drawnId s, drawnId (withCallbackJob h1 s)]
      choices := s.choices + 2
      cbq := { usedQueue s.cbq with
        ins := s.cbq.ins ++
          [callbackJob (drawnId s) h1, callbackJob (drawnId (withCallbackJob h1 s)) h2] } } := by
  rw [withCallbackJob, usedQueue_withCallbackJob]
  simp [withCallbackJob]

theorem insOverflowed_withCallbackJob (h : Handle) (s : State) :
    insOverflowed (withCallbackJob h s) = { s with
      issued := s.issued ++ [drawnId s, drawnId (withCallbackJob h s)]
      choices := s.choices + 2
      cbq := { usedQueue s.cbq with ins := s.cbq.ins ++ [callbackJob (drawnId s) h] }
      faultCause := firstCause s .insOverflow } := by
  rw [insOverflowed, usedQueue_withCallbackJob]
  simp [withCallbackJob, firstCause]

section
variable {new : BitVec 8} {h h1 h2 : Handle} {s : State} (hactive : s.acValid = true)
  (hother : s.acCode ≠ new)
include hactive hother

theorem changeCommand_silent (hnorelease : noCallback s.released s.acCode)
    (hnopress : noCallback s.pressed new) :
    changeCommand new s = .done () { s with acValid := true, acCode := new } := by
  rw [changeCommand_of_other hactive hother, notifyBinding_of_noCallback hnorelease, andThen_done,
    pressCommand_of_noCallback hnopress]

/-- The first callback found, the release's or else the press's, is the first to need an id. -/
theorem changeCommand_refuses_first
    (hfirst : hasCallback s.released s.acCode h ∨
      (noCallback s.released s.acCode ∧ hasCallback s.pressed new h))
    (hids : noFreshId s s.issued.length) : changeCommand new s = .refused .idExhausted := by
  rw [changeCommand_of_other hactive hother]
  rcases hfirst with hrelease | ⟨hnorelease, hpress⟩
  · rw [notifyBinding_refuses hrelease hids, andThen_refused]
  · rw [notifyBinding_of_noCallback hnorelease, andThen_done, pressCommand_refuses hpress hids]

/-- The first callback found is also the first to need room. -/
theorem changeCommand_overflows_first
    (hfirst : hasCallback s.released s.acCode h ∨
      (noCallback s.released s.acCode ∧ hasCallback s.pressed new h))
    (hids : ¬ noFreshId s s.issued.length) (hfull : s.params.insCap ≤ s.cbq.ins.length) :
    changeCommand new s = .stopped (insOverflowed s) := by
  rw [changeCommand_of_other hactive hother]
  rcases hfirst with hrelease | ⟨hnorelease, hpress⟩
  · rw [notifyBinding_overflows hrelease hids hfull, andThen_stopped]
  · rw [notifyBinding_of_noCallback hnorelease, andThen_done,
      pressCommand_overflows hpress hids hfull]

theorem changeCommand_enqueues_one
    (hone : (hasCallback s.released s.acCode h ∧ noCallback s.pressed new) ∨
      (noCallback s.released s.acCode ∧ hasCallback s.pressed new h))
    (hids : ¬ noFreshId s s.issued.length) (hroom : s.cbq.ins.length < s.params.insCap) :
    changeCommand new s =
      .done () { withCallbackJob h s with acValid := true, acCode := new } := by
  rw [changeCommand_of_other hactive hother]
  rcases hone with ⟨hrelease, hnopress⟩ | ⟨hnorelease, hpress⟩
  · rw [notifyBinding_enqueues hrelease hids hroom, andThen_done]
    exact pressCommand_of_noCallback hnopress
  · rw [notifyBinding_of_noCallback hnorelease, andThen_done,
      pressCommand_enqueues hpress hids hroom]

/-- With a release that found id and room, what is left is the press, from the state after it. -/
theorem changeCommand_after_release (hrelease : hasCallback s.released s.acCode h)
    (hids : ¬ noFreshId s s.issued.length) (hroom : s.cbq.ins.length < s.params.insCap) :
    changeCommand new s = pressCommand new (withCallbackJob h s) := by
  rw [changeCommand_of_other hactive hother, notifyBinding_enqueues hrelease hids hroom,
    andThen_done]

theorem changeCommand_refuses_second (hrelease : hasCallback s.released s.acCode h1)
    (hpress : hasCallback s.pressed new h2) (hids : ¬ noFreshId s s.issued.length)
    (hnext : noFreshId s (s.issued.length + 1)) (hroom : s.cbq.ins.length < s.params.insCap) :
    changeCommand new s = .refused .idExhausted := by
  rw [changeCommand_after_release hactive hother hrelease hids hroom]
  exact pressCommand_refuses hpress ((noFreshId_withCallbackJob h1 s).2 hnext)

/-- R153: the release's job stands before the press's, also when the press's finds no room. -/
theorem changeCommand_both (hrelease : hasCallback s.released s.acCode h1)
    (hpress : hasCallback s.pressed new h2) (hnext : ¬ noFreshId s (s.issued.length + 1))
    (hroom : s.cbq.ins.length < s.params.insCap) :
    changeCommand new s =
      if s.cbq.ins.length + 1 < s.params.insCap then
        .done () { withCallbackJob h2 (withCallbackJob h1 s) with acValid := true, acCode := new }
      else .stopped (insOverflowed (withCallbackJob h1 s)) := by
  have hids : ¬ noFreshId s s.issued.length := fun hnone => hnext (hnone.trans (Nat.le_succ _))
  have hids' := mt (noFreshId_withCallbackJob h1 s).1 hnext
  have hlength : (withCallbackJob h1 s).cbq.ins.length = s.cbq.ins.length + 1 := List.length_append
  rw [changeCommand_after_release hactive hother hrelease hids hroom]
  by_cases hroom' : s.cbq.ins.length + 1 < s.params.insCap
  · rw [if_pos hroom']
    exact pressCommand_enqueues hpress hids' (hlength.trans_lt hroom')
  · rw [if_neg hroom']
    exact pressCommand_overflows hpress hids' (hlength.symm ▸ Nat.not_lt.1 hroom')

end

/-- Settles O33, by the ways the two notifications can end; the second id is the one drawn in the
state that the release left. -/
theorem releasePrecedesPress : Obligations.ReleasePrecedesPress := by
  intro s new hactive hnew hother hclock
  dsimp only
  rw [dispatch_datagram hnew hclock]
  have hactive' : (datagramSeen s).acValid = true := hactive
  have hother' : (datagramSeen s).acCode ≠ new := hother
  refine ⟨changeCommand_silent hactive' hother', fun h hone => ?_, fun h1 h2 hrelease hpress => ?_⟩
  · have hfirst := hone.imp_left And.left
    exact ⟨changeCommand_refuses_first hactive' hother' hfirst,
      changeCommand_overflows_first hactive' hother' hfirst,
      changeCommand_enqueues_one hactive' hother' hone⟩
  · refine ⟨changeCommand_refuses_first hactive' hother' (.inl hrelease),
      changeCommand_overflows_first hactive' hother' (.inl hrelease),
      changeCommand_refuses_second hactive' hother' hrelease hpress, fun hnext hroom =>
      ⟨drawnId (withCallbackJob h1 (datagramSeen s)), ?_⟩⟩
    rw [changeCommand_both hactive' hother' hrelease hpress hnext hroom, withCallbackJob_twice,
      insOverflowed_withCallbackJob]
    rfl

/-! ### A pulse that refreshes DEADLINE -/

theorem pulse_refused {d : Nat} {s : State} {r : RefuseReason} (hs : s.listening = true)
    (hbody : pulseBody d s = .refused r) : pulse d s = { s with refused := true } := by
  rw [pulse_of_listening d hs, hbody, commit_refused]
  rfl

/-- The 32nd bit completes a Datagram whichever bit it is (41_datagram_assembler.md R125). -/
theorem assemble_lastBit {d : Nat} {s : State} (hbit : d < 2700) (hlast : s.bits.toNat = 31) :
    (assemble (classify d) s).1 = .datagram := by
  have hclass : ∃ b, classify d = .bit b := by
    by_cases hshort : d < 1600
    · exact ⟨false, classify_bit_false hshort⟩
    · exact ⟨true, classify_bit_true (by omega) hbit⟩
  obtain ⟨b, hb⟩ := hclass
  rw [hb, assemble_bit, appendBit_freeze hlast]

/-- Settles O29: the assembler writes neither NOW nor the parameters, so its dispatch refuses on the
clock of the state before the pulse. -/
theorem repeatPulseRefreshesDeadline : Obligations.RepeatPulseRefreshesDeadline := by
  intro d s hconn hunfaulted
  have hs := (listening_eq_true s).2 ⟨hconn, hunfaulted⟩
  refine ⟨fun hlo hhi hclock => ?_, fun hband hclock => ?_⟩
  · have hrefresh : refreshDeadline { s with bits := 0 } =
        .done () { s with bits := 0, deadline := s.now + 120 } :=
      (refreshDeadline_eq _).trans (if_pos hclock)
    rw [pulse_of_listening d hs, pulseBody, classify_repeatMarker hlo hhi, assemble_repeatMarker,
      dispatch, hrefresh, commit_done]
  · have hresult : (assemble (classify d) s).1 ≠ .incomplete := by
      rcases hband with ⟨hlo, hhi⟩ | ⟨hbit, hlast⟩
      · simp [classify_repeatMarker hlo hhi]
      · simp [assemble_lastBit hbit hlast]
    refine pulse_refused hs (dispatch_of_clockWrap hresult ?_)
    rw [(assemble_step (classify d) s).writes]
    exact hclock

end Sys2Proof.Machine
end

section
/-! PROOFS. Identifiers (44_scheduler.md R164): the search for a fresh id from a proposal finds one,
because there are more candidates than ids that are taken. -/

namespace Sys2Proof.Machine

/-- An id that DrawId may return: not 0 and never issued (R164). -/
def IsFresh (issued : List JobId) (x : JobId) : Prop := x ≠ 0 ∧ x ∉ issued

section
variable {wId : Nat} {issued : List JobId} {c : Nat}

/-- The `i`-th candidate that the search from `c` tries. -/
def freshCandidate (wId c i : Nat) : JobId := BitVec.ofNat 32 ((c + i) % 2 ^ wId)

theorem freshCandidate_succ (wId c i : Nat) :
    freshCandidate wId ((c + 1) % 2 ^ wId) i = freshCandidate wId c (i + 1) := by
  rw [freshCandidate, freshCandidate, Nat.mod_add_mod, Nat.add_right_comm, Nat.add_assoc]

theorem freshCandidate_zero (hc : c < 2 ^ wId) : freshCandidate wId c 0 = BitVec.ofNat 32 c := by
  rw [freshCandidate, Nat.add_zero, Nat.mod_eq_of_lt hc]

theorem freshFrom_of_isFresh (fuel : Nat) (h : IsFresh issued (BitVec.ofNat 32 c)) :
    freshFrom wId issued (fuel + 1) c = BitVec.ofNat 32 c := if_pos h

theorem freshFrom_of_not_isFresh (fuel : Nat) (h : ¬ IsFresh issued (BitVec.ofNat 32 c)) :
    freshFrom wId issued (fuel + 1) c = freshFrom wId issued fuel ((c + 1) % 2 ^ wId) := if_neg h

/-- The search returns a fresh id when one is within its reach. -/
theorem freshFrom_isFresh {fuel : Nat} (hc : c < 2 ^ wId)
    (h : ∃ i ≤ fuel, IsFresh issued (freshCandidate wId c i)) :
    IsFresh issued (freshFrom wId issued fuel c) := by
  obtain ⟨i, hi, hfresh⟩ := h
  induction fuel generalizing c i with
  | zero =>
    obtain rfl := Nat.le_zero.1 hi
    rwa [freshCandidate_zero hc] at hfresh
  | succ fuel ih =>
    by_cases hfirst : IsFresh issued (BitVec.ofNat 32 c)
    · rwa [freshFrom_of_isFresh fuel hfirst]
    · rw [freshFrom_of_not_isFresh fuel hfirst]
      cases i with
      | zero => exact absurd (freshCandidate_zero hc ▸ hfresh) hfirst
      | succ i =>
        exact ih (Nat.mod_lt _ (Nat.two_pow_pos wId)) i (Nat.le_of_succ_le_succ hi)
          (by rwa [freshCandidate_succ])

theorem freshFrom_lt (fuel : Nat) (hc : c < 2 ^ wId) :
    (freshFrom wId issued fuel c).toNat < 2 ^ wId := by
  have hfirst : (BitVec.ofNat 32 c).toNat < 2 ^ wId := by
    rw [BitVec.toNat_ofNat]
    exact (Nat.mod_le _ _).trans_lt hc
  induction fuel generalizing c with
  | zero => exact hfirst
  | succ fuel ih =>
    have hnext : (c + 1) % 2 ^ wId < 2 ^ wId := Nat.mod_lt _ (Nat.two_pow_pos wId)
    rw [freshFrom]
    split
    · exact hfirst
    · exact ih hnext (by rw [BitVec.toNat_ofNat]; exact (Nat.mod_le _ _).trans_lt hnext)

/-- In one round of the cyclic order no candidate comes twice. -/
theorem freshCandidate_injOn (hw : wId ≤ 32) {i k : Nat} (hi : i < 2 ^ wId) (hk : k < 2 ^ wId)
    (h : freshCandidate wId c i = freshCandidate wId c k) : i = k := by
  have hle : 2 ^ wId ≤ 2 ^ 32 := Nat.pow_le_pow_right (by decide) hw
  have hlt (n : Nat) : (c + n) % 2 ^ wId < 2 ^ 32 :=
    (Nat.mod_lt _ (Nat.two_pow_pos wId)).trans_le hle
  have hnat := congrArg BitVec.toNat h
  simp only [freshCandidate, BitVec.toNat_ofNat, Nat.mod_eq_of_lt (hlt _)] at hnat
  have hmod : i % 2 ^ wId = k % 2 ^ wId := Nat.ModEq.add_left_cancel' c hnat
  rwa [Nat.mod_eq_of_lt hi, Nat.mod_eq_of_lt hk] at hmod

/-- Among more candidates than there are taken ids, 0 included, one is fresh. -/
theorem exists_isFresh_freshCandidate (hw : wId ≤ 32) (hroom : issued.length + 1 < 2 ^ wId)
    (c : Nat) : ∃ i ≤ issued.length + 1, IsFresh issued (freshCandidate wId c i) := by
  by_contra hnone
  have htaken : ∀ i ≤ issued.length + 1, freshCandidate wId c i ∈ 0 :: issued := by
    intro i hi
    by_contra hout
    obtain ⟨hzero, hissued⟩ := not_or.1 (mt List.mem_cons.2 hout)
    exact hnone ⟨i, hi, hzero, hissued⟩
  have hnodup : ((List.range (issued.length + 2)).map (freshCandidate wId c)).Nodup := by
    refine List.Nodup.map_on (fun i hi k hk => ?_) List.nodup_range
    rw [List.mem_range] at hi hk
    exact freshCandidate_injOn hw (by omega) (by omega)
  have hsubset : (List.range (issued.length + 2)).map (freshCandidate wId c) ⊆ 0 :: issued := by
    intro x hx
    obtain ⟨i, hi, rfl⟩ := List.mem_map.1 hx
    exact htaken i (Nat.le_of_lt_succ (List.mem_range.1 hi))
  have hlength := (hnodup.subperm hsubset).length_le
  simp at hlength

end

/-- Settles O36: the search tries as many candidates as there are taken ids, and so reaches a fresh
one. -/
theorem drawnIdIsFresh : Obligations.DrawnIdIsFresh := by
  intro s hw hroom
  have hstart : (Config.freeId s.choices).toNat % 2 ^ s.params.wId < 2 ^ s.params.wId :=
    Nat.mod_lt _ (Nat.two_pow_pos _)
  obtain ⟨hzero, hissued⟩ :=
    freshFrom_isFresh hstart (exists_isFresh_freshCandidate hw hroom _)
  exact ⟨hzero, freshFrom_lt _ hstart, hissued⟩

/-- Settles O37: the first candidate is the proposal itself. -/
theorem everyFreshIdAdmitted : Obligations.EveryFreshIdAdmitted := by
  intro wId issued fuel x hzero hissued hlt
  have hx : BitVec.ofNat 32 (x.toNat % 2 ^ wId) = x := by
    rw [Nat.mod_eq_of_lt hlt, BitVec.ofNat_toNat, BitVec.setWidth_eq]
  rw [freshFrom_of_isFresh fuel (by rw [hx]; exact ⟨hzero, hissued⟩), hx]

end Sys2Proof.Machine
end

section
/-! PROOFS. The commands SCHEDULE and CANCEL (44_scheduler.md R161 to R166). -/

namespace Sys2Proof.Machine

theorem exec_schedule {s : State} (hs : s.faultCause = none) (present : Bool) (q : QueueKind)
    (mode : Mode) (cb : Handle) (delay : BitVec 32) :
    exec (.schedule present q mode cb delay) s =
      .next (answer s (internalSchedule present (.user cb) q mode delay.toInt s)) :=
  congrArg Host.Outcome.next (command_of_unfaulted _ s hs)

/-- Settles O14: a rejected request is no use of the queue. -/
theorem invalidScheduleRejected : Obligations.InvalidScheduleRejected := by
  intro present q mode cb delay s hs hinvalid
  rw [exec_schedule hs, internalSchedule_eq _ _ _ _ _ _ hs, if_pos hinvalid]
  rfl

/-- R163 with the delay as its field. -/
theorem shrunkPoll_toInt {delay : BitVec 32} (hdelay : 0 ≤ delay.toInt) (mode : Mode) (m : Nat) :
    shrunkPoll mode delay.toInt m =
      if mode = .repeating ∧ 0 < delay.toNat ∧ delay.toNat < m then delay.toNat else m := by
  have hnat : delay.toInt = delay.toNat := by
    rw [BitVec.toInt_eq_toNat_cond] at hdelay ⊢
    split at hdelay <;> omega
  simp only [shrunkPoll, hnat, Int.toNat_natCast, Nat.cast_pos, Nat.cast_lt]

/-- Settles O15: with an id left, an accepted request finds room in INS[Q] or faults there. -/
theorem scheduleAppendsJob : Obligations.ScheduleAppendsJob := by
  intro q mode cb delay s hs hdelay hids
  dsimp only
  rw [exec_schedule hs, internalSchedule_eq _ _ _ _ _ _ hs, if_neg (by simpa using hdelay),
    if_neg (Nat.not_le.2 hids), ← shrunkPoll_toInt hdelay]
  by_cases hroom : (s.queue q).ins.length < s.params.insCap
  · rw [if_pos hroom, if_pos hroom]
    cases q <;> rfl
  · rw [if_neg hroom, if_neg hroom]
    cases q <;> rfl

/-- Settles O17: the first use of the queue writes neither REM[Q] nor FAULT_CAUSE. -/
theorem cancelAppendsRemoval : Obligations.CancelAppendsRemoval := by
  intro q id s hs
  have hexec : exec (.cancel q id) s =
      .next (answer s ((appendRem q id (ensureQueue q s)).andThen fun _ t => .done 0 t)) :=
    congrArg Host.Outcome.next (command_of_unfaulted _ s hs)
  have hrem : ((ensureQueue q s).queue q).rem = (s.queue q).rem := by simp [ensureQueue]
  have hparams : (ensureQueue q s).params = s.params := by simp [ensureQueue]
  rw [hexec, appendRem_eq _ _ _ (by simpa [ensureQueue] using hs), hrem, hparams]
  by_cases hroom : (s.queue q).rem.length < s.params.remCap
  · rw [if_pos hroom, if_pos hroom]
    cases q <;> rfl
  · rw [if_neg hroom, if_neg hroom]
    cases q <;> rfl

end Sys2Proof.Machine
end

section
/-! PROOFS. The polling loops (44_scheduler.md R167 to R180): one rule per step that a loop's
sequencer can enable, and the ways RUNJOB can end. -/

namespace Sys2Proof.Machine

/-! ### JobRun -/

theorem jobRun_of_noTime {delta : Int} (h : delta ≤ 0) (j : Job) :
    jobRun j delta = { job := j, fired := false, complete := false } := if_pos h

section
variable {j : Job} {delta : Int} (htime : 0 < delta)
include htime

theorem jobRun_counting (h : 0 < j.remaining - delta) :
    jobRun j delta = {
      job := { j with remaining := j.remaining - delta }, fired := false, complete := false } := by
  rw [jobRun, if_neg (Int.not_le.2 htime), if_pos h]

theorem jobRun_once (h : j.remaining - delta ≤ 0) (hmode : j.mode = .once) :
    jobRun j delta =
      { job := { j with remaining := j.remaining - delta }, fired := true, complete := true } := by
  rw [jobRun, if_neg (Int.not_le.2 htime), if_neg (Int.not_lt.2 h)]
  simp only [hmode]

theorem jobRun_repeating (h : j.remaining - delta ≤ 0) (hmode : j.mode = .repeating) :
    jobRun j delta =
      { job := { j with remaining := j.delay }, fired := true, complete := false } := by
  rw [jobRun, if_neg (Int.not_le.2 htime), if_neg (Int.not_lt.2 h)]
  simp only [hmode]

end

/-- Settles O38: one rule per case. -/
theorem jobRunCases : Obligations.JobRunCases := fun j _ =>
  ⟨fun h => jobRun_of_noTime h j, jobRun_counting, jobRun_once, jobRun_repeating⟩

/-- A job that does not fire keeps its countdown or decrements it (R173, R174). -/
theorem jobRun_of_not_fired {j : Job} {delta : Int}
    (h : delta ≤ 0 ∨ 0 < j.remaining - delta) :
    jobRun j delta = {
      job := if delta ≤ 0 then j else { j with remaining := j.remaining - delta }
      fired := false
      complete := false } := by
  by_cases hnone : delta ≤ 0
  · rw [jobRun_of_noTime hnone, if_pos hnone]
  · rw [jobRun_counting (Int.not_le.1 hnone) (h.resolve_left hnone), if_neg hnone]

/-! ### The turn of a loop, by its phase -/

section
variable {q : QueueKind} {s : State}

theorem loopStep_of_enabled (hcreated : (s.queue q).created = true) (hs : s.faultCause = none) :
    loopStep q s = commit s (loopBody q s) := by
  rw [loopStep, hcreated, (faulted_eq_false s).2 hs]
  rfl

theorem loopBody_of_unstarted (h : (s.queue q).phase = .unstarted) :
    loopBody q s = .done () (loopStart q s) := by
  simp only [loopBody, h]

theorem loopBody_of_head (h : (s.queue q).phase = .head ∨
    ∃ w, (s.queue q).phase = .sleep w ∧ w ≤ s.now) : loopBody q s = loopHead q s := by
  rcases h with h | ⟨w, h, hw⟩
  · simp only [loopBody, h]
  · simp only [loopBody, h, if_pos hw]

theorem loopBody_of_asleep {w : Int} (h : (s.queue q).phase = .sleep w) (hw : (s.now : Int) < w) :
    loopBody q s = .done () s := by
  simp only [loopBody, h, if_neg (Int.not_le.2 hw)]

theorem loopBody_of_invoke (h : (s.queue q).phase = .invoke) : loopBody q s = .done () s := by
  simp only [loopBody, h]

theorem loopBody_of_run (h : (s.queue q).phase = .run)
    (hk : (s.queue q).k < (s.queue q).live.length) : loopBody q s = loopRunJob q s := by
  simp only [loopBody, h, if_pos hk]

theorem loopBody_of_end (h : (s.queue q).phase = .run)
    (hk : (s.queue q).k = (s.queue q).live.length) : loopBody q s = .done () (loopEnd q s) := by
  simp only [loopBody, h, hk, Nat.lt_irrefl, if_true, if_false]

/-- A cursor past the live list, which no bounded state has, enables nothing. -/
theorem loopBody_of_past (h : (s.queue q).phase = .run)
    (hk : (s.queue q).live.length < (s.queue q).k) : loopBody q s = .done () s := by
  simp only [loopBody, h, if_neg (Nat.lt_asymm hk), if_neg (Nat.ne_of_gt hk)]

/-! ### START, HEAD, END and the blocked loop -/

theorem loopStep_start (hcreated : (s.queue q).created = true) (hs : s.faultCause = none)
    (h : (s.queue q).phase = .unstarted) : loopStep q s = loopStart q s := by
  rw [loopStep_of_enabled hcreated hs, loopBody_of_unstarted h, commit_done]

/-- The record of a queue after HEAD's first part (R168). -/
def drainedQueue (now : Nat) (Q : Queue) : Queue :=
  { Q with delta := (now : Int) - Q.prev, prev := now, ins := [], rem := [] }

/-- The record of a queue after a HEAD that fits (R169). -/
def headQueue (now : Nat) (Q : Queue) : Queue :=
  { drainedQueue now Q with live := drainedLive Q, k := 0, phase := .run }

theorem created_of_headEnabled (h : headEnabled q s) : (s.queue q).created = true := by
  obtain ⟨hcreated, _⟩ := h
  exact hcreated

/-- HEAD is not enabled within a pass. -/
theorem phase_ne_of_headEnabled (h : headEnabled q s) :
    (s.queue q).phase ≠ .run ∧ (s.queue q).phase ≠ .invoke := by
  obtain ⟨_, _, hphase | ⟨w, hphase, _⟩⟩ := h
  · rw [hphase]
    exact ⟨nofun, nofun⟩
  · rw [hphase]
    exact ⟨nofun, nofun⟩

theorem unfaulted_of_headEnabled (h : headEnabled q s) : s.faultCause = none := by
  obtain ⟨_, hfaulted, _⟩ := h
  exact (faulted_eq_false s).1 hfaulted

theorem loopStep_of_headEnabled (h : headEnabled q s) :
    loopStep q s = commit s (loopHead q s) := by
  obtain ⟨hcreated, hfaulted, hphase⟩ := h
  rw [loopStep_of_enabled hcreated ((faulted_eq_false s).1 hfaulted), loopBody_of_head hphase]

theorem loopStep_head (h : headEnabled q s)
    (hroom : (drainedLive (s.queue q)).length ≤ s.params.jobCap) :
    loopStep q s = s.setQueue q (headQueue s.now (s.queue q)) := by
  rw [loopStep_of_headEnabled h, loopHead, if_neg (Nat.not_lt.2 hroom), commit_done]
  simp [drainBuffers, headQueue, drainedQueue]

theorem loopStep_liveOverflow (h : headEnabled q s)
    (hfull : s.params.jobCap < (drainedLive (s.queue q)).length) :
    loopStep q s = State.setQueue { s with faultCause := some .liveOverflow } q
      (drainedQueue s.now (s.queue q)) := by
  have hs : (drainBuffers q s).faultCause = none :=
    (setQueue_faultCause ..).trans (unfaulted_of_headEnabled h)
  rw [loopStep_of_headEnabled h, loopHead, if_pos hfull, raiseFault_eq _ _ hs, commit_stopped]
  cases q <;> rfl

theorem loopStep_end (hcreated : (s.queue q).created = true) (hs : s.faultCause = none)
    (h : (s.queue q).phase = .run) (hk : (s.queue q).k = (s.queue q).live.length) :
    loopStep q s = loopEnd q s := by
  rw [loopStep_of_enabled hcreated hs, loopBody_of_end h hk, commit_done]

theorem loopStep_of_uncreated (h : (s.queue q).created = false) : loopStep q s = s := by
  rw [loopStep, h]
  rfl

theorem loopStep_of_faulted (q : QueueKind) (h : s.faultCause ≠ none) : loopStep q s = s := by
  rw [loopStep, (faulted_eq_true s).2 h, Bool.not_true, Bool.and_false]
  rfl

/-- A turn in which the sequencer enables nothing changes nothing, whatever the other guards say. -/
theorem loopStep_of_body_idle (h : loopBody q s = .done () s) : loopStep q s = s := by
  rw [loopStep, h, commit_done, ite_self]

end

/-- Settles O39, by the rule of START. -/
theorem startRecordsClock : Obligations.StartRecordsClock := fun _ _ => loopStep_start

/-- Settles O40: the length after both drains decides between the two rules of HEAD. -/
theorem headDrainsBuffers : Obligations.HeadDrainsBuffers := by
  intro q s h
  dsimp only
  split
  next hroom => exact loopStep_head h hroom
  next hfull => exact loopStep_liveOverflow h (Nat.not_le.1 hfull)

/-- Settles O45, by the rule of END. -/
theorem endSleepsForPollInterval : Obligations.EndSleepsForPollInterval := fun _ _ => loopStep_end

/-- Settles O46: each way to be blocked fails one guard of every loop step. -/
theorem blockedLoopDoesNothing : Obligations.BlockedLoopDoesNothing := by
  rintro q s (huncreated | hfaulted | hinvoke | ⟨w, hsleep, hearly⟩)
  · exact loopStep_of_uncreated huncreated
  · exact loopStep_of_faulted q hfaulted
  · exact loopStep_of_body_idle (loopBody_of_invoke hinvoke)
  · exact loopStep_of_body_idle (loopBody_of_asleep hsleep hearly)

/-! ### RUNJOB -/

section
variable {q : QueueKind} {i : Nat} {j : Job} {s : State}

/-- The position in LIVE[q] that the cursor stands for (R171). -/
theorem index_eq_jobIndex (h : runsJob q i j s) :
    i = jobIndex q (s.queue q).live.length (s.queue q).k := by
  obtain ⟨_, _, _, _, hi, _⟩ := h
  rw [hi]
  cases q <;> rfl

theorem getElem?_of_runsJob (h : runsJob q i j s) : (s.queue q).live[i]? = some j := by
  obtain ⟨_, _, _, _, _, hj⟩ := h
  exact hj

theorem created_of_runsJob (h : runsJob q i j s) : (s.queue q).created = true := by
  obtain ⟨hcreated, _⟩ := h
  exact hcreated

theorem phase_of_runsJob (h : runsJob q i j s) : (s.queue q).phase = .run := by
  obtain ⟨_, _, hphase, _⟩ := h
  exact hphase

theorem cursor_lt_of_runsJob (h : runsJob q i j s) :
    (s.queue q).k < (s.queue q).live.length := by
  obtain ⟨_, _, _, hk, _⟩ := h
  exact hk

theorem unfaulted_of_runsJob (h : runsJob q i j s) : s.faultCause = none := by
  obtain ⟨_, hfaulted, _⟩ := h
  exact (faulted_eq_false s).1 hfaulted

theorem jobIndex_lt {n k : Nat} (q : QueueKind) (h : k < n) : jobIndex q n k < n := by
  cases q <;> simp only [jobIndex] <;> omega

/-- In an enabled loop with the cursor at a live job, RUNJOB is enabled on that job. -/
theorem exists_runsJob (hcreated : (s.queue q).created = true) (hs : s.faultCause = none)
    (hphase : (s.queue q).phase = .run) (hk : (s.queue q).k < (s.queue q).live.length) :
    ∃ j, runsJob q (jobIndex q (s.queue q).live.length (s.queue q).k) j s := by
  refine ⟨(s.queue q).live[jobIndex q (s.queue q).live.length (s.queue q).k]'(jobIndex_lt q hk),
    hcreated, (faulted_eq_false s).2 hs, hphase, hk, ?_, ?_⟩
  · cases q <;> rfl
  · exact List.getElem?_eq_getElem _

theorem loopStep_of_runsJob (h : runsJob q i j s) :
    loopStep q s = commit s (runJobAt q i j s) := by
  have hi := index_eq_jobIndex h
  obtain ⟨hcreated, hfaulted, hphase, hk, _, hj⟩ := h
  rw [loopStep_of_enabled hcreated ((faulted_eq_false s).1 hfaulted), loopBody_of_run hphase hk,
    loopRunJob]
  simp only [← hi, hj]

/-- RUNJOB's first write: the job that ran goes back to its place (R172). -/
def putJob (q : QueueKind) (i : Nat) (job : Job) (s : State) : State :=
  s.setQueue q { s.queue q with live := (s.queue q).live.set i job }

@[simp] theorem putJob_faultCause (q : QueueKind) (i : Nat) (job : Job) (s : State) :
    (putJob q i job s).faultCause = s.faultCause := setQueue_faultCause ..

theorem loopStep_notFired (h : runsJob q i j s)
    (hnot : (s.queue q).delta ≤ 0 ∨ 0 < j.remaining - (s.queue q).delta) :
    loopStep q s = advanceCursor q (putJob q i
      (if (s.queue q).delta ≤ 0 then j
        else { j with remaining := j.remaining - (s.queue q).delta }) s) := by
  rw [loopStep_of_runsJob h, runJobAt, jobRun_of_not_fired hnot]
  rfl

section
variable (h : runsJob q i j s) (htime : 0 < (s.queue q).delta)
  (hdue : j.remaining - (s.queue q).delta ≤ 0)
include h htime hdue

/-- A Once job that fires puts its id into REM[q] before its callback runs (R178). -/
theorem loopStep_once (hmode : j.mode = .once) :
    loopStep q s = commit s
      ((appendRem q j.id
        (putJob q i { j with remaining := j.remaining - (s.queue q).delta } s)).andThen
          fun _ t => fireCallback q true j.cb t) := by
  rw [loopStep_of_runsJob h, runJobAt, jobRun_once htime hdue hmode]
  rfl

theorem loopStep_onceOverflow (hmode : j.mode = .once)
    (hfull : s.params.remCap ≤ (s.queue q).rem.length) :
    loopStep q s = { putJob q i { j with remaining := j.remaining - (s.queue q).delta } s with
      faultCause := some .remOverflow } := by
  have hs := unfaulted_of_runsJob h
  rw [loopStep_once h htime hdue hmode, appendRem_eq _ _ _ (by rwa [putJob_faultCause]),
    if_neg (by simpa [putJob] using hfull), andThen_stopped, commit_stopped]

theorem loopStep_onceRoom (hmode : j.mode = .once)
    (hroom : (s.queue q).rem.length < s.params.remCap) :
    loopStep q s = commit s (fireCallback q true j.cb (s.setQueue q { s.queue q with
      live := (s.queue q).live.set i { j with remaining := j.remaining - (s.queue q).delta }
      rem := (s.queue q).rem ++ [j.id] })) := by
  have hs := unfaulted_of_runsJob h
  rw [loopStep_once h htime hdue hmode, appendRem_eq _ _ _ (by rwa [putJob_faultCause]),
    if_pos (by simpa [putJob] using hroom), andThen_done]
  simp [putJob]

theorem loopStep_repeating (hmode : j.mode = .repeating) :
    loopStep q s =
      commit s (fireCallback q true j.cb (putJob q i { j with remaining := j.delay } s)) := by
  rw [loopStep_of_runsJob h, runJobAt, jobRun_repeating htime hdue hmode]
  rfl

end

theorem commit_fireCallback_user (q : QueueKind) (h : Handle) (s0 s : State) :
    commit s0 (fireCallback q true (.user h) s) = invokeCallback q h s := rfl

/-- The repeat-check's body runs within the step; the cursor moves when it is done (R177). -/
theorem commit_fireCallback_repeatCheck (q : QueueKind) (s0 s : State) :
    commit s0 (fireCallback q true .repeatCheck s) =
      match repeatCheck s with
      | .done _ t => advanceCursor q t
      | .stopped t => t
      | .refused _ => s0.refuse := by
  rw [fireCallback, if_pos rfl]
  cases repeatCheck s <;> rfl

end

/-- Settles O41: a job that does not fire has no callback to run. -/
theorem runJobCountsDown : Obligations.RunJobCountsDown := by
  intro q i j s h hnot
  rw [loopStep_notFired h hnot]
  cases q <;> rfl

/-- Settles O42: the two modes differ in what they write before the callback is invoked. -/
theorem runJobInvokesCallback : Obligations.RunJobInvokesCallback := by
  intro q i j h s hrun htime hdue hcb
  refine ⟨fun hmode hroom => ?_, fun hmode => ?_⟩
  · rw [loopStep_onceRoom hrun htime hdue hmode hroom, hcb, commit_fireCallback_user]
    cases q <;> rfl
  · rw [loopStep_repeating hrun htime hdue hmode, hcb, commit_fireCallback_user]
    cases q <;> rfl

/-- Settles O43: the append comes before the callback, so its fault leaves the callback out. -/
theorem runJobFaultsOnFullRemovalBuffer : Obligations.RunJobFaultsOnFullRemovalBuffer := by
  intro q i j s h htime hdue hmode hfull
  rw [loopStep_onceOverflow h htime hdue hmode hfull]
  cases q <;> rfl

/-- The step of a Repeat-mode repeat-check that fires, by how its body ends. -/
theorem loopStep_repeatCheck {q : QueueKind} {i : Nat} {j : Job} {s : State} (h : runsJob q i j s)
    (htime : 0 < (s.queue q).delta) (hdue : j.remaining - (s.queue q).delta ≤ 0)
    (hmode : j.mode = .repeating) (hcb : j.cb = .repeatCheck) :
    loopStep q s =
      match repeatCheck (putJob q i { j with remaining := j.delay } s) with
      | .done _ t => advanceCursor q t
      | .stopped t => t
      | .refused _ => s.refuse := by
  rw [loopStep_repeating h htime hdue hmode, hcb, commit_fireCallback_repeatCheck]

/-- Settles O44: the countdown writes nothing that the repeat-check reads, so the step ends as the
repeat-check's own rule says of the state that the countdown left. -/
theorem runJobRunsRepeatCheck : Obligations.RunJobRunsRepeatCheck := by
  intro q i j s hrun htime hdue hmode hcb
  have hs := unfaulted_of_runsJob hrun
  have hstep := loopStep_repeatCheck hrun htime hdue hmode hcb
  obtain ⟨hidle, htimeout⟩ :=
    repeatCheckReleasesAfterDeadline (putJob q i { j with remaining := j.delay } s)
  have hcause : firstCause (putJob q i { j with remaining := j.delay } s) .insOverflow =
      some .insOverflow := if_pos (by rwa [putJob_faultCause])
  simp only [putJob, setQueue_acValid, setQueue_now, setQueue_deadline, setQueue_released,
    setQueue_acCode, setQueue_issued, setQueue_params, setQueue_choices, drawnId_setQueue,
    noFreshId] at hstep hidle htimeout hcause
  refine ⟨hstep, fun hnone => ?_, fun hactive hlate => ?_⟩
  · rw [hstep, hidle hnone]
    cases q <;> rfl
  obtain ⟨hsilent, hcallback⟩ := htimeout hactive hlate
  refine ⟨fun hno => ?_, fun h hhas => ?_⟩
  · rw [hstep, hsilent hno]
    cases q <;> rfl
  obtain ⟨hrefuses, henqueues, hoverflows⟩ := hcallback h hhas
  refine ⟨fun hids => ?_, fun hids hroom => ?_, fun hids hfull => ?_⟩
  · rw [hstep, hrefuses hids]
    cases q <;> rfl
  · rw [hstep, henqueues hids hroom]
    cases q <;> rfl
  · rw [hstep, hoverflows hids hfull, hcause]
    cases q <;> rfl

/-! ### A pass in which no time has passed -/

section
variable {q : QueueKind} {s : State}

theorem loopStep_of_noTime (hcreated : (s.queue q).created = true) (hs : s.faultCause = none)
    (hphase : (s.queue q).phase = .run) (hk : (s.queue q).k < (s.queue q).live.length)
    (hdelta : (s.queue q).delta ≤ 0) : loopStep q s = advanceCursor q s := by
  obtain ⟨j, hrun⟩ := exists_runsJob hcreated hs hphase hk
  have hput (i : Nat) (hj : (s.queue q).live[i]? = some j) : putJob q i j s = s := by
    obtain ⟨hi, rfl⟩ := List.getElem?_eq_some_iff.1 hj
    rw [putJob, List.set_getElem_self, setQueue_queue]
  rw [loopStep_notFired hrun (.inl hdelta), if_pos hdelta, hput _ (getElem?_of_runsJob hrun)]

theorem loopTurns_of_noTime (n : Nat) {s : State} (hcreated : (s.queue q).created = true)
    (hs : s.faultCause = none) (hphase : (s.queue q).phase = .run)
    (hk : (s.queue q).k + n = (s.queue q).live.length) (hdelta : (s.queue q).delta ≤ 0) :
    loopTurns q (n + 1) s = s.setQueue q { s.queue q with
      k := (s.queue q).live.length
      phase := .sleep ((s.now : Int) + ((s.queue q).minPoll : Int)) } := by
  induction n generalizing s with
  | zero =>
    have hend : (s.queue q).k = (s.queue q).live.length := hk
    rw [loopTurns, loopStep_end hcreated hs hphase hend, loopTurns, loopEnd, ← hend]
  | succ n ih =>
    rw [loopTurns, loopStep_of_noTime hcreated hs hphase (by omega) hdelta, ih]
    all_goals simp [advanceCursor, hcreated, hs, hphase, hdelta]
    omega

end

/-- Settles O47, by induction on the jobs that the pass has left. -/
theorem zeroDeltaPassOnlySleeps : Obligations.ZeroDeltaPassOnlySleeps := by
  intro q s hcreated hs hphase hk hdelta
  exact loopTurns_of_noTime _ hcreated hs hphase (by omega) hdelta.le

end Sys2Proof.Machine
end

section
/-! PROOFS. What a step other than RESET does to the queues and to ISSUED: the mover may write the
record of one queue as its own, and beyond that it only feeds the queues, with first uses, new jobs,
drawn ids and removals (20_memory.md R70, 44_scheduler.md R160 to R180). -/

namespace Sys2Proof.Machine

/-! ### Feeding the queues -/

/-- `t` has the queues, ISSUED and the parameters of `s`, and clears neither FAULT_CAUSE nor
REFUSED. -/
structure SameScheduler (s t : State) : Prop where
  queue : ∀ q, t.queue q = s.queue q
  issued : t.issued = s.issued
  params : t.params = s.params
  unfaulted : t.faultCause = none → s.faultCause = none
  unrefused : t.refused = false → s.refused = false

/-- The state after a draw that found an id (R164). -/
def withDrawnId (s : State) : State :=
  { s with issued := s.issued ++ [drawnId s], choices := s.choices + 1 }

/-- One write by which an agent feeds the queues (R160, R163 to R166). -/
inductive Feed : State → State → Prop
  | other {s t : State} (h : SameScheduler s t) : Feed s t
  | draw {s : State} (hids : s.issued.length + 1 < 2 ^ s.params.wId) : Feed s (withDrawnId s)
  | use (q : QueueKind) (s : State) : Feed s (ensureQueue q s)
  | enqueue (q : QueueKind) (cb : Callback) (mode : Mode) (delay : Int) {s : State}
      (hids : s.issued.length + 1 < 2 ^ s.params.wId) :
      Feed s ((withDrawnId s).setQueue q
        (withNewJob (s.queue q) (newJob (drawnId s) cb mode delay)))
  | cancel (q : QueueKind) (id : JobId) (s : State) :
      Feed s (s.setQueue q { s.queue q with rem := (s.queue q).rem ++ [id] })

/-- Any number of feeding writes. -/
abbrev Feeds : State → State → Prop := Relation.ReflTransGen Feed

theorem Feeds.refl (s : State) : Feeds s s := Relation.ReflTransGen.refl

theorem SameScheduler.feeds {s t : State} (h : SameScheduler s t) : Feeds s t := .single (.other h)

theorem emit_feeds (s : State) (e : Output) : Feeds s (s.emit e) :=
  SameScheduler.feeds ⟨fun _ => rfl, rfl, rfl, id, id⟩

theorem respond_feeds (s : State) (st : Status) (v : Val) : Feeds s (s.respond st v) :=
  emit_feeds s _

theorem refuse_feeds (s : State) : Feeds s s.refuse :=
  SameScheduler.feeds ⟨fun _ => rfl, rfl, rfl, id, nofun⟩

section
variable {α β : Type} {s : State}

theorem Feeds.andThen {b : Body α} {f : α → State → Body β} (hb : b.Ends (Feeds s))
    (hf : ∀ a t, (f a t).Ends (Feeds t)) : (b.andThen f).Ends (Feeds s) :=
  hb.andThen (fun _ h => h) fun a t h => (hf a t).mono fun _ => h.trans

theorem firstCause_ne_none (s : State) (c : FaultCause) : firstCause s c ≠ none := by
  unfold firstCause
  split
  · nofun
  · assumption

theorem feeds_firstCause (c : FaultCause) (s : State) :
    Feeds s { s with faultCause := firstCause s c } :=
  SameScheduler.feeds
    ⟨fun _ => rfl, rfl, rfl, fun h => absurd h (firstCause_ne_none s c), id⟩

theorem raiseFault_feeds (c : FaultCause) (s : State) :
    (raiseFault c s : Body α).Ends (Feeds s) := by
  rw [raiseFault_firstCause]
  exact feeds_firstCause c s

theorem commit_feeds {b : Body Unit} (hb : b.Ends (Feeds s)) : Feeds s (commit s b) := by
  cases b with
  | done a t => exact hb
  | stopped t => exact hb
  | refused r => exact refuse_feeds s

theorem command_feeds {body : State → Body Val} (hb : (body s).Ends (Feeds s)) :
    Feeds s (command body s) := by
  unfold command
  split
  · exact respond_feeds ..
  · cases h : body s with
    | done v t => rw [h] at hb; exact Relation.ReflTransGen.trans hb (respond_feeds ..)
    | stopped t => rw [h] at hb; exact Relation.ReflTransGen.trans hb (respond_feeds ..)
    | refused r => exact SameScheduler.feeds ⟨fun _ => rfl, rfl, rfl, id, nofun⟩

theorem illegalCommand_feeds (s : State) : Feeds s (illegalCommand s) := by
  unfold illegalCommand
  split <;> exact respond_feeds ..

end

/-! ### The shared operations -/

@[simp] theorem queue_withDrawnId (s : State) (q : QueueKind) :
    (withDrawnId s).queue q = s.queue q := rfl

theorem ensureQueue_withDrawnId (q : QueueKind) (s : State) :
    { ensureQueue q s with issued := s.issued ++ [drawnId s], choices := s.choices + 1 } =
      ensureQueue q (withDrawnId s) := by
  cases q <;> rfl

/-- First use, append and shrink make one record (R166). -/
theorem shrinkPoll_appended (q : QueueKind) (id : JobId) (cb : Callback) (mode : Mode) (delay : Int)
    (s : State) :
    shrinkPoll q mode delay ((ensureQueue q s).setQueue q { (ensureQueue q s).queue q with
      ins := ((ensureQueue q s).queue q).ins ++ [newJob id cb mode delay] }) =
      s.setQueue q (withNewJob (s.queue q) (newJob id cb mode delay)) := by
  simp [ensureQueue, shrinkPoll, withNewJob, newJob]

theorem internalSchedule_feeds (present : Bool) (cb : Callback) (q : QueueKind) (mode : Mode)
    (delay : Int) (s : State) :
    (internalSchedule present cb q mode delay s).Ends (Feeds s) := by
  unfold internalSchedule
  split
  · exact .refl s
  · rw [drawId_eq]
    by_cases hids : s.issued.length + 1 < 2 ^ s.params.wId
    · have hfirst : Feeds s (ensureQueue q (withDrawnId s)) :=
        .tail (.single (.draw hids)) (.use q _)
      have hdrawn : drawnId (ensureQueue q s) = drawnId s := drawnId_setQueue ..
      rw [if_pos (by simpa [ensureQueue] using hids), andThen_done, hdrawn, appendIns]
      simp only [show (ensureQueue q s).issued = s.issued by simp [ensureQueue],
        show (ensureQueue q s).choices = s.choices by simp [ensureQueue],
        ensureQueue_withDrawnId]
      split
      · rw [raiseFault_firstCause, andThen_stopped]
        exact hfirst.trans (feeds_firstCause _ _)
      · rw [andThen_done, shrinkPoll_appended, queue_withDrawnId]
        exact .single (.enqueue q cb mode delay hids)
    · rw [if_neg (by simpa [ensureQueue] using hids), andThen_refused]
      trivial

theorem enqueueCallback_feeds (b : Binding) (s : State) : (enqueueCallback b s).Ends (Feeds s) :=
  Feeds.andThen (internalSchedule_feeds ..) fun _ t => .refl t

theorem notifyBinding_feeds (bs : List Binding) (c : BitVec 8) (s : State) :
    (notifyBinding bs c s).Ends (Feeds s) :=
  notifyBinding_ends (.refl s) fun b => enqueueCallback_feeds b s

theorem appendRem_feeds (q : QueueKind) (id : JobId) (s : State) :
    (appendRem q id s).Ends (Feeds s) := by
  unfold appendRem
  split
  · exact raiseFault_feeds ..
  · exact .single (.cancel q id s)

/-! ### The pulse path and the clock -/

theorem AssemblerStep.feeds {s t : State} (h : AssemblerStep s t) : Feeds s t := by
  rw [h.writes]
  exact SameScheduler.feeds ⟨fun _ => rfl, rfl, rfl, id, id⟩

theorem refreshDeadline_feeds (s : State) : (refreshDeadline s).Ends (Feeds s) := by
  rw [refreshDeadline_eq]
  split
  · exact SameScheduler.feeds ⟨fun _ => rfl, rfl, rfl, id, id⟩
  · trivial

theorem changeCommand_feeds (new : BitVec 8) (s : State) :
    (changeCommand new s).Ends (Feeds s) := by
  unfold changeCommand
  split
  · exact .refl s
  · have hrelease : (releaseActive s).Ends (Feeds s) := by
      unfold releaseActive
      split
      · exact notifyBinding_feeds ..
      · exact .refl s
    refine Feeds.andThen hrelease fun _ s1 => Feeds.andThen (notifyBinding_feeds ..) fun _ s2 => ?_
    exact SameScheduler.feeds ⟨fun _ => rfl, rfl, rfl, id, id⟩

theorem dispatch_feeds (r : PulseResult) (s : State) : (dispatch r s).Ends (Feeds s) := by
  cases r with
  | incomplete => exact .refl s
  | repeatCode => exact refreshDeadline_feeds s
  | datagram =>
    refine Feeds.andThen (refreshDeadline_feeds s) fun _ s1 => ?_
    have hnew : Feeds s1 { s1 with newdg := true } :=
      SameScheduler.feeds ⟨fun _ => rfl, rfl, rfl, id, id⟩
    exact (changeCommand_feeds _ _).mono fun _ => hnew.trans

theorem commit_pulseBody_feeds (d : Nat) (s : State) : Feeds s (commit s (pulseBody d s)) :=
  commit_feeds ((dispatch_feeds _ _).mono fun _ => (assemble_step _ s).feeds.trans)

theorem pulse_feeds (d : Nat) (s : State) : Feeds s (pulse d s) := by
  unfold pulse
  split
  · exact commit_pulseBody_feeds d s
  · exact .refl s

theorem edge_feeds (e : EdgeKind) (mark : Nat) (s : State) : Feeds s (edge e mark s) := by
  unfold edge
  split
  · split
    · exact SameScheduler.feeds ⟨fun _ => rfl, rfl, rfl, id, id⟩
    · exact commit_pulseBody_feeds _ s
  · exact .refl s

theorem tick_feeds (n : Nat) (s : State) : Feeds s (tick n s) := by
  unfold tick
  split
  · exact SameScheduler.feeds ⟨fun _ => rfl, rfl, rfl, id, id⟩
  · exact refuse_feeds s

/-! ### The commands -/

theorem ensureInit_feeds (s : State) : Feeds s (ensureInit s) :=
  SameScheduler.feeds ⟨fun _ => rfl, rfl, rfl, id, id⟩

theorem connectBody_feeds (pr : Protocol) (s : State) : (connectBody pr s).Ends (Feeds s) := by
  unfold connectBody
  split
  · exact ensureInit_feeds s
  · have hconnected : Feeds s { ensureInit s with proto := pr, conn := true, markLatch := 0 } :=
      SameScheduler.feeds ⟨fun _ => rfl, rfl, rfl, id, id⟩
    exact Feeds.andThen ((internalSchedule_feeds ..).mono fun _ => hconnected.trans)
      fun _ t => .refl t

theorem onButtonBody_feeds (present : Bool) (kind : Transition) (cb : Handle) (code : ButtonCode)
    (s : State) : (onButtonBody present kind cb code s).Ends (Feeds s) := by
  refine Feeds.andThen ?_ fun _ t => .refl t
  unfold appendBinding
  split
  · exact (raiseFault_feeds ..).mono fun _ => (ensureInit_feeds s).trans
  · cases kind with
    | pressed => exact SameScheduler.feeds ⟨fun _ => rfl, rfl, rfl, id, id⟩
    | released => exact SameScheduler.feeds ⟨fun _ => rfl, rfl, rfl, id, id⟩

/-- A command feeds the queues, after it has ended the callback if it is CB_RETURN
(20_memory.md R70). -/
theorem exec_feeds (i : Instr) {s t : State} (h : exec i s = .next t) :
    Feeds s t ∨
      ∃ q, i = .cbReturn q ∧ (s.queue q).phase = .invoke ∧ Feeds (returnFromCallback q s) t := by
  cases i with
  | nop => cases h; exact .inl (command_feeds (.refl s))
  | connect pr pin => cases h; exact .inl (command_feeds (connectBody_feeds pr s))
  | onButton present kind cb code =>
    cases h
    split
    · exact .inl (command_feeds (onButtonBody_feeds ..))
    · exact .inl (illegalCommand_feeds s)
  | schedule present q mode cb delay =>
    cases h; exact .inl (command_feeds (internalSchedule_feeds ..))
  | cancel q id =>
    cases h
    have huse : Feeds s (ensureQueue q s) := .single (.use q s)
    exact .inl (command_feeds (Feeds.andThen ((appendRem_feeds ..).mono fun _ => huse.trans)
      fun _ t => .refl t))
  | queryDatagram =>
    cases h
    exact .inl (command_feeds (SameScheduler.feeds ⟨fun _ => rfl, rfl, rfl, id, id⟩))
  | readState q sel =>
    simp only [exec, execReadState] at h
    split at h <;> cases h
    · exact .inl (respond_feeds ..)
    · exact .inl (illegalCommand_feeds s)
  | cbReturn q =>
    cases h
    split
    · rename_i hphase
      by_cases hs : s.faultCause = none
      · rw [command_of_unfaulted _ _ hs]
        exact .inr ⟨q, rfl, hphase, respond_feeds ..⟩
      · rw [command_of_faulted _ _ hs]
        exact .inl (respond_feeds ..)
    · exact .inl (illegalCommand_feeds s)

/-! ### What the mover writes as its own -/

/-- The record of a queue after RUNJOB on the job `j` at index `i`, cursor and phase aside: the
countdown in place, and a completed job's id in REM[q] (R172, R178). -/
def ranQueue (i : Nat) (j : Job) (Q : Queue) : Queue :=
  { Q with
    live := Q.live.set i (jobRun j Q.delta).job
    rem := Q.rem ++ if (jobRun j Q.delta).complete then [j.id] else [] }

/-- The record that the move `m` gives a queue `q` as its own, before it feeds any queue on its way
to `t`. A loop's turn that had a job to run and ran none was refused (60_exceptions.md R236). -/
inductive OwnWrite (m : Move) (s t : State) (q : QueueKind) : Queue → Prop
  | none (h : ∀ r i j, m = .loop r → runsJob r i j s → t.refused = true) :
      OwnWrite m s t q (s.queue q)
  | returned {w : Word} (hm : m = .command w) (hw : decode w = .ok (.cbReturn q))
      (hphase : (s.queue q).phase = .invoke) :
      OwnWrite m s t q { s.queue q with k := (s.queue q).k + 1, phase := .run }
  | start (hm : m = .loop q) (hcreated : (s.queue q).created = true)
      (hphase : (s.queue q).phase = .unstarted) :
      OwnWrite m s t q { s.queue q with prev := s.now, phase := .head }
  | head (hm : m = .loop q) (henabled : headEnabled q s) :
      OwnWrite m s t q (headQueue s.now (s.queue q))
  | overflowed (hm : m = .loop q) (henabled : headEnabled q s) (hfault : t.faultCause ≠ none) :
      OwnWrite m s t q (drainedQueue s.now (s.queue q))
  | asleep (hm : m = .loop q) (hcreated : (s.queue q).created = true)
      (hphase : (s.queue q).phase = .run) (hk : (s.queue q).k = (s.queue q).live.length) :
      OwnWrite m s t q
        { s.queue q with phase := .sleep ((s.now : Int) + (s.queue q).minPoll) }
  | counted {i : Nat} {j : Job} (hm : m = .loop q) (hrun : runsJob q i j s) :
      OwnWrite m s t q { ranQueue i j (s.queue q) with k := (s.queue q).k + 1 }
  | invoked {i : Nat} {j : Job} (hm : m = .loop q) (hrun : runsJob q i j s) :
      OwnWrite m s t q { ranQueue i j (s.queue q) with phase := .invoke }
  | stopped {i : Nat} {j : Job} (hm : m = .loop q) (hrun : runsJob q i j s)
      (hfault : t.faultCause ≠ Option.none) :
      OwnWrite m s t q
        { s.queue q with live := (s.queue q).live.set i (jobRun j (s.queue q).delta).job }

/-- `m` takes `s` to `t` by one write of its own and feeding writes. -/
def Turn (m : Move) (s t : State) : Prop :=
  ∃ q Q, OwnWrite m s t q Q ∧ Feeds (s.setQueue q Q) t

theorem Feeds.turn {m : Move} {s t : State} (h : Feeds s t)
    (hnone : ∀ r i j, m = .loop r → runsJob r i j s → t.refused = true) : Turn m s t :=
  ⟨.prio, _, .none hnone, by rwa [setQueue_queue]⟩

/-! ### RUNJOB -/

section
variable {q : QueueKind} {i : Nat} {j : Job} {s : State}

theorem withNewJob_callbackJob (Q : Queue) (id : JobId) (h : Handle) :
    withNewJob Q (newJob id (.user h) .once 0) =
      { usedQueue Q with ins := Q.ins ++ [callbackJob id h] } := by
  rw [withNewJob, newJob, shrunkPoll_once, ← firstUse_minPoll Q]
  rfl

theorem feeds_withCallbackJob (h : Handle) (hids : ¬ noFreshId s s.issued.length) :
    Feeds s (withCallbackJob h s) := by
  have henqueue := Feed.enqueue .cbq (.user h) .once 0 (Nat.not_le.1 hids)
  rw [withNewJob_callbackJob] at henqueue
  exact .single henqueue

/-- The new job goes to the tail of INS[CBQ], so the cursor does not see it, whichever queue it is
in. -/
theorem withCallbackJob_advanceCursor (h : Handle) (hcreated : (s.queue q).created = true) :
    withCallbackJob h (advanceCursor q s) = advanceCursor q (withCallbackJob h s) := by
  cases q with
  | prio => rfl
  | cbq =>
    have hused : usedQueue s.cbq = s.cbq := usedQueue_of_created hcreated
    have hused' : usedQueue (advanceCursor .cbq s).cbq = (advanceCursor .cbq s).cbq :=
      usedQueue_of_created hcreated
    rw [withCallbackJob, withCallbackJob, hused, hused']
    rfl

theorem feeds_insOverflowed (hids : ¬ noFreshId s s.issued.length) :
    Feeds s (insOverflowed s) :=
  .trans (.tail (.single (.draw (Nat.not_le.1 hids))) (.use .cbq _)) (feeds_firstCause _ _)

/-- The repeat-check refuses, faults, or is done; then the cursor could as well have moved before
it. -/
theorem repeatCheck_feeds (hcreated : (s.queue q).created = true) :
    match repeatCheck s with
    | .done _ t => Feeds (advanceCursor q s) (advanceCursor q t)
    | .stopped t => t.faultCause ≠ none ∧ Feeds s t
    | .refused _ => True := by
  have hclear (t : State) : Feeds (advanceCursor q t)
      (advanceCursor q { t with acValid := false, acCode := 0, bits := 0 }) :=
    SameScheduler.feeds ⟨fun _ => by cases q <;> rfl, by cases q <;> rfl, by cases q <;> rfl,
      by cases q <;> exact id, by cases q <;> exact id⟩
  rcases repeatCheck_cases s with ⟨_, hidle⟩ | ⟨_, _, htimeout⟩
  · rw [hidle]
  rw [htimeout]
  by_cases hno : noCallback s.released s.acCode
  · rw [notifyBinding_of_noCallback hno, andThen_done]
    exact hclear s
  · obtain ⟨b, hb, hpresent⟩ : ∃ b, lookupBinding s.released s.acCode = some b ∧
        b.present = true := by simpa [noCallback] using hno
    have hcb : hasCallback s.released s.acCode b.handle := ⟨b, hb, hpresent, rfl⟩
    by_cases hids : noFreshId s s.issued.length
    · rw [notifyBinding_refuses hcb hids, andThen_refused]
      trivial
    · by_cases hfull : s.params.insCap ≤ s.cbq.ins.length
      · rw [notifyBinding_overflows hcb hids hfull, andThen_stopped]
        exact ⟨firstCause_ne_none s _, feeds_insOverflowed hids⟩
      · rw [notifyBinding_enqueues hcb hids (Nat.not_le.1 hfull), andThen_done]
        refine Relation.ReflTransGen.trans ?_ (hclear _)
        rw [← withCallbackJob_advanceCursor _ hcreated]
        exact feeds_withCallbackJob _ (by
          simpa [noFreshId, advanceCursor] using hids)

/-- A completed job's removal is one more feeding write. -/
theorem feeds_ranQueue (q : QueueKind) (i : Nat) (j : Job) (s : State) :
    Feeds
      (s.setQueue q
        { s.queue q with live := (s.queue q).live.set i (jobRun j (s.queue q).delta).job })
      (s.setQueue q (ranQueue i j (s.queue q))) := by
  unfold ranQueue
  split
  · refine .single ?_
    simpa using Feed.cancel q j.id (s.setQueue q
      { s.queue q with live := (s.queue q).live.set i (jobRun j (s.queue q).delta).job })
  · rw [List.append_nil]

/-- A fired job's callback, after the countdown and the removal of a completed job. -/
theorem commit_fireCallback_turn (hrun : runsJob q i j s) :
    Turn (.loop q) s
      (commit s (fireCallback q true j.cb (s.setQueue q (ranQueue i j (s.queue q))))) := by
  have hcreated : ((s.setQueue q (ranQueue i j (s.queue q))).queue q).created = true := by
    simpa [ranQueue] using created_of_runsJob hrun
  cases hcb : j.cb with
  | user h =>
    rw [commit_fireCallback_user]
    refine ⟨q, _, .invoked rfl hrun, ?_⟩
    simpa [invokeCallback] using emit_feeds _ _
  | repeatCheck =>
    have hfeeds := repeatCheck_feeds hcreated
    rw [commit_fireCallback_repeatCheck]
    cases hcheck : repeatCheck (s.setQueue q (ranQueue i j (s.queue q))) with
    | done a t =>
      rw [hcheck] at hfeeds
      refine ⟨q, _, .counted rfl hrun, ?_⟩
      simpa [advanceCursor, ranQueue] using hfeeds
    | stopped t =>
      rw [hcheck] at hfeeds
      obtain ⟨hfault, hfeeds⟩ := hfeeds
      exact ⟨q, _, .stopped rfl hrun hfault, (feeds_ranQueue q i j s).trans hfeeds⟩
    | refused r => exact (refuse_feeds s).turn fun _ _ _ _ _ => rfl

/-- RUNJOB's turn, by the outcomes of its countdown (R173 to R178). -/
theorem loopStep_turn_of_runsJob (hrun : runsJob q i j s) : Turn (.loop q) s (loopStep q s) := by
  by_cases hnot : (s.queue q).delta ≤ 0 ∨ 0 < j.remaining - (s.queue q).delta
  · refine ⟨q, _, .counted rfl hrun, ?_⟩
    rw [loopStep_notFired hrun hnot]
    simpa [ranQueue, jobRun_of_not_fired hnot, advanceCursor, putJob] using Feeds.refl _
  · obtain ⟨htime, hdue⟩ := not_or.1 hnot
    have htime := Int.not_le.1 htime
    have hdue := Int.not_lt.1 hdue
    cases hmode : j.mode with
    | once =>
      have hjob := jobRun_once htime hdue hmode
      by_cases hroom : (s.queue q).rem.length < s.params.remCap
      · have hturn := commit_fireCallback_turn hrun
        rw [ranQueue, hjob] at hturn
        rw [loopStep_onceRoom hrun htime hdue hmode hroom]
        exact hturn
      · rw [loopStep_onceOverflow hrun htime hdue hmode (Nat.not_lt.1 hroom)]
        refine ⟨q, _, .stopped rfl hrun nofun, ?_⟩
        rw [hjob]
        exact SameScheduler.feeds ⟨fun _ => rfl, rfl, rfl, nofun, id⟩
    | repeating =>
      have hturn := commit_fireCallback_turn hrun
      rw [ranQueue, jobRun_repeating htime hdue hmode] at hturn
      rw [loopStep_repeating hrun htime hdue hmode]
      simpa [putJob] using hturn

end

/-! ### The turns of the agents -/

theorem loopStep_turn_of_headEnabled {q : QueueKind} {s : State} (h : headEnabled q s) :
    Turn (.loop q) s (loopStep q s) := by
  by_cases hroom : (drainedLive (s.queue q)).length ≤ s.params.jobCap
  · rw [loopStep_head h hroom]
    exact ⟨q, _, .head rfl h, .refl _⟩
  · rw [loopStep_liveOverflow h (Nat.not_le.1 hroom)]
    refine ⟨q, _, .overflowed rfl h (by cases q <;> nofun), SameScheduler.feeds ?_⟩
    exact ⟨fun r => by cases q <;> rfl, by cases q <;> rfl, by cases q <;> rfl,
      by cases q <;> nofun, by cases q <;> exact id⟩

/-- A loop's turn in which no job can run and which changes nothing. -/
theorem turn_of_no_job {q : QueueKind} {s : State} (h : ∀ i j, ¬ runsJob q i j s)
    (hstep : loopStep q s = s) : Turn (.loop q) s (loopStep q s) := by
  rw [hstep]
  refine (Feeds.refl s).turn fun r i j hm hrun => ?_
  obtain rfl : q = r := Move.loop.inj hm
  exact absurd hrun (h i j)

theorem loopStep_turn (q : QueueKind) (s : State) : Turn (.loop q) s (loopStep q s) := by
  rcases loopStep_cases q s with ⟨hblocked, hstep⟩ | ⟨hcreated, hs, _⟩
  · refine turn_of_no_job (fun i j hrun => ?_) hstep
    rcases hblocked with hno | hfault
    · exact absurd (hno.symm.trans (created_of_runsJob hrun)) nofun
    · exact hfault (unfaulted_of_runsJob hrun)
  have hfaulted := (faulted_eq_false s).2 hs
  cases hphase : (s.queue q).phase with
  | unstarted =>
    rw [loopStep_start hcreated hs hphase]
    exact ⟨q, _, .start rfl hcreated hphase, .refl _⟩
  | head => exact loopStep_turn_of_headEnabled ⟨hcreated, hfaulted, .inl hphase⟩
  | sleep w =>
    by_cases hw : w ≤ s.now
    · exact loopStep_turn_of_headEnabled ⟨hcreated, hfaulted, .inr ⟨w, hphase, hw⟩⟩
    · refine turn_of_no_job (fun i j hrun => ?_)
        (loopStep_of_body_idle (loopBody_of_asleep hphase (Int.not_le.1 hw)))
      exact absurd (hphase.symm.trans (phase_of_runsJob hrun)) nofun
  | invoke =>
    refine turn_of_no_job (fun i j hrun => ?_) (loopStep_of_body_idle (loopBody_of_invoke hphase))
    exact absurd (hphase.symm.trans (phase_of_runsJob hrun)) nofun
  | run =>
    rcases Nat.lt_trichotomy (s.queue q).k (s.queue q).live.length with hk | hk | hk
    · obtain ⟨j, hrun⟩ := exists_runsJob hcreated hs hphase hk
      exact loopStep_turn_of_runsJob hrun
    · rw [loopStep_end hcreated hs hphase hk]
      exact ⟨q, _, .asleep rfl hcreated hphase hk, .refl _⟩
    · refine turn_of_no_job (fun i j hrun => ?_)
        (loopStep_of_body_idle (loopBody_of_past hphase hk))
      exact Nat.lt_asymm hk (cursor_lt_of_runsJob hrun)

/-- Every move but RESET is a turn of its agent. -/
theorem perform_turn {m : Move} {s t : State} (hm : m ≠ .reset) (h : perform m s = .next t) :
    Turn m s t := by
  unfold perform at h
  split at h
  · cases m with
    | command w =>
      simp only [runCommand] at h
      split at h
      · rename_i i hdecode
        rcases exec_feeds i h with hfeeds | ⟨q, rfl, hphase, hfeeds⟩
        · exact hfeeds.turn nofun
        · exact ⟨q, _, .returned rfl hdecode hphase, hfeeds⟩
      · cases h; exact (illegalCommand_feeds s).turn nofun
    | pulse d => cases h; exact (pulse_feeds d s).turn nofun
    | edge e mark => cases h; exact (edge_feeds e mark s).turn nofun
    | tick n => cases h; exact (tick_feeds n s).turn nofun
    | reset => exact absurd rfl hm
    | loop q => cases h; exact loopStep_turn q s
  · rename_i hillegal
    cases h
    refine (Feeds.refl s).turn fun r i j hr _ => ?_
    rw [hr] at hillegal
    exact absurd rfl hillegal

/-! ### What feeding leaves unchanged -/

/-- The ids of a queue's jobs, live or waiting. -/
def queueIds (Q : Queue) : List JobId := (Q.live ++ Q.ins).map Job.id

/-- A queue that does not exist has a loop that has not started. -/
def LoopUnstarted (Q : Queue) : Prop := Q.created = false → Q.phase = .unstarted ∧ Q.k = 0

theorem loopUnstarted_of_created {Q : Queue} (h : Q.created = true) : LoopUnstarted Q :=
  fun hc => absurd (hc.symm.trans h) nofun

/-- Feeding leaves a queue's live list and the pass under way, keeps its removals, and shrinks its
polling interval at most (R163, R170). -/
structure QueueFed (Q R : Queue) : Prop where
  live : R.live = Q.live
  delta : R.delta = Q.delta
  rem : ∀ x ∈ Q.rem, x ∈ R.rem
  minPoll_le : R.minPoll ≤ Q.minPoll
  minPoll_pos : 1 ≤ Q.minPoll → 1 ≤ R.minPoll
  unstarted : LoopUnstarted Q → LoopUnstarted R
  phase : LoopUnstarted Q → R.phase = Q.phase
  k : LoopUnstarted Q → R.k = Q.k

theorem QueueFed.refl (Q : Queue) : QueueFed Q Q :=
  ⟨rfl, rfl, fun _ => id, le_rfl, id, id, fun _ => rfl, fun _ => rfl⟩

theorem QueueFed.trans {P Q R : Queue} (h : QueueFed P Q) (h' : QueueFed Q R) : QueueFed P R where
  live := h'.live.trans h.live
  delta := h'.delta.trans h.delta
  rem x hx := h'.rem x (h.rem x hx)
  minPoll_le := h'.minPoll_le.trans h.minPoll_le
  minPoll_pos hP := h'.minPoll_pos (h.minPoll_pos hP)
  unstarted hP := h'.unstarted (h.unstarted hP)
  phase hP := (h'.phase (h.unstarted hP)).trans (h.phase hP)
  k hP := (h'.k (h.unstarted hP)).trans (h.k hP)

theorem firstUse_fed (Q : Queue) : QueueFed Q (firstUse Q) := by
  rcases firstUse_cases Q with ⟨_, hQ⟩ | ⟨hc, hQ⟩
  · rw [hQ]
    exact .refl Q
  · rw [hQ]
    exact ⟨rfl, rfl, fun _ => id, le_rfl, id, fun _ => nofun, fun h => (h hc).1.symm,
      fun h => (h hc).2.symm⟩

theorem withNewJob_fed (Q : Queue) (j : Job) : QueueFed Q (withNewJob Q j) :=
  (firstUse_fed Q).trans
    { QueueFed.refl (firstUse Q) with
      minPoll_le := by simpa [withNewJob] using shrunkPoll_le j.mode j.delay Q.minPoll
      minPoll_pos := by simpa [withNewJob] using shrunkPoll_pos j.mode j.delay Q.minPoll
      unstarted := fun _ => by simp [LoopUnstarted, withNewJob] }

theorem appendedRem_fed (Q : Queue) (x : JobId) : QueueFed Q { Q with rem := Q.rem ++ [x] } :=
  { QueueFed.refl Q with rem := fun _ => List.mem_append_left _ }

/-- What feeding leaves of the whole state; where W_ID fits the ids' 32 bits, the ids it adds are
new. -/
structure Fed (s t : State) : Prop where
  queue : ∀ q, QueueFed (s.queue q) (t.queue q)
  params : t.params = s.params
  unfaulted : t.faultCause = none → s.faultCause = none
  unrefused : t.refused = false → s.refused = false
  issued : ∀ x ∈ s.issued, x ∈ t.issued
  ids : s.params.wId ≤ 32 → ∀ q, ∀ x ∈ queueIds (t.queue q),
    x ∈ queueIds (s.queue q) ∨ x ∉ s.issued

theorem Fed.refl (s : State) : Fed s s :=
  ⟨fun _ => .refl _, rfl, id, id, fun _ => id, fun _ _ _ => .inl⟩

theorem Fed.trans {s t u : State} (h : Fed s t) (h' : Fed t u) : Fed s u where
  queue q := (h.queue q).trans (h'.queue q)
  params := h'.params.trans h.params
  unfaulted hu := h.unfaulted (h'.unfaulted hu)
  unrefused hu := h.unrefused (h'.unrefused hu)
  issued x hx := h'.issued x (h.issued x hx)
  ids hw q x hx := by
    rcases h'.ids (h.params ▸ hw) q x hx with hx | hx
    · exact h.ids hw q x hx
    · exact .inr (mt (h.issued x) hx)

/-- A write to one queue's record is judged by that record. -/
theorem fed_setQueue {s : State} {q : QueueKind} {Q : Queue} (hQ : QueueFed (s.queue q) Q)
    (hids : s.params.wId ≤ 32 → ∀ x ∈ queueIds Q, x ∈ queueIds (s.queue q) ∨ x ∉ s.issued) :
    Fed s (s.setQueue q Q) where
  queue r := by
    by_cases hr : r = q
    · subst hr; simpa using hQ
    · rw [queue_setQueue_of_ne _ _ _ _ hr]; exact .refl _
  params := setQueue_params ..
  unfaulted := by simp
  unrefused := by simp
  issued := by simp
  ids hw r x hx := by
    by_cases hr : r = q
    · subst hr; exact hids hw x (by simpa using hx)
    · rw [queue_setQueue_of_ne _ _ _ _ hr] at hx; exact .inl hx

theorem queueIds_withNewJob (Q : Queue) (j : Job) :
    queueIds (withNewJob Q j) = queueIds Q ++ [j.id] := by
  simp [queueIds, withNewJob]

theorem withDrawnId_fed (s : State) : Fed s (withDrawnId s) :=
  { Fed.refl s with issued := fun _ => List.mem_append_left _ }

theorem Feed.fed {s t : State} (h : Feed s t) : Fed s t := by
  cases h with
  | other h =>
    exact ⟨fun q => h.queue q ▸ .refl _, h.params, h.unfaulted, h.unrefused,
      fun _ => h.issued ▸ id, fun _ q _ => h.queue q ▸ .inl⟩
  | draw => exact withDrawnId_fed s
  | use q => exact fed_setQueue (firstUse_fed _) fun _ x hx => .inl (by simpa [queueIds] using hx)
  | enqueue q cb mode delay hids =>
    have hqueue := withNewJob_fed (s.queue q) (newJob (drawnId s) cb mode delay)
    have hset := fed_setQueue (s := s) hqueue fun hw x hx => by
      rw [queueIds_withNewJob, List.mem_append, List.mem_singleton] at hx
      obtain ⟨_, _, hnew⟩ := drawnIdIsFresh s hw hids
      refine hx.imp_right ?_
      rintro rfl
      exact hnew
    exact { hset with
      queue := fun r => by cases q <;> exact hset.queue r
      params := by simpa using (withDrawnId_fed s).params
      unfaulted := by simpa using (withDrawnId_fed s).unfaulted
      unrefused := by simpa using (withDrawnId_fed s).unrefused
      issued := by simpa using (withDrawnId_fed s).issued
      ids := fun hw r => by cases q <;> exact hset.ids hw r }
  | cancel q id => exact fed_setQueue (appendedRem_fed _ id) fun _ _ => .inl

theorem Feeds.fed {s t : State} (h : Feeds s t) : Fed s t := by
  induction h with
  | refl => exact .refl s
  | tail _ h ih => exact ih.trans h.fed

end Sys2Proof.Machine
end

section
/-! PROOFS. What every step keeps of the scheduler: the polling interval, the wait for a callback's
return, and the identifier discipline (44_scheduler.md R164, R177, R183). -/

namespace Sys2Proof.Machine

/-! ### The whole step, by its move -/

theorem perform_reset (s : State) : perform .reset s = .next (resetBlock s) := rfl

theorem takeMove_sameScheduler (s : State) : SameScheduler s (takeMove s).2 := by
  unfold takeMove
  split <;> exact ⟨fun _ => rfl, rfl, rfl, id, id⟩

/-- What holds of a queue's record holds after a write to a record, if that one has it too. -/
theorem holds_queue_setQueue {P : Queue → Prop} {s : State} {q r : QueueKind} {Q : Queue}
    (hs : P (s.queue r)) (hQ : r = q → P Q) : P ((s.setQueue q Q).queue r) := by
  by_cases hr : r = q
  · subst hr; simpa using hQ rfl
  · rwa [queue_setQueue_of_ne _ _ _ _ hr]

/-! ### The polling interval -/

section
variable {m : Move} {s t : State} {q : QueueKind} {Q : Queue}

theorem OwnWrite.minPoll (h : OwnWrite m s t q Q) : Q.minPoll = (s.queue q).minPoll := by
  cases h <;> rfl

theorem Turn.minPoll (h : Turn m s t) (r : QueueKind) :
    (t.queue r).minPoll ≤ (s.queue r).minPoll ∧
      (1 ≤ (s.queue r).minPoll → 1 ≤ (t.queue r).minPoll) := by
  obtain ⟨q, Q, hown, hfeeds⟩ := h
  have hset : ((s.setQueue q Q).queue r).minPoll = (s.queue r).minPoll :=
    holds_queue_setQueue (P := fun R => R.minPoll = (s.queue r).minPoll) rfl
      (by rintro rfl; exact hown.minPoll)
  have hfed := hfeeds.fed.queue r
  rw [← hset]
  exact ⟨hfed.minPoll_le, hfed.minPoll_pos⟩

end

/-- Settles O56: no mover writes MINPOLL as its own, and feeding shrinks it at most. -/
theorem pollIntervalNeverGrows : Obligations.PollIntervalNeverGrows := by
  intro q s t hstep
  have hsame := takeMove_sameScheduler s
  rw [← hsame.queue, ← hsame.params]
  refine ⟨fun hmove => (perform_turn hmove hstep).minPoll q, fun hmove => ?_⟩
  rw [step, hmove, perform_reset] at hstep
  cases hstep
  cases q <;> rfl

/-! ### A loop that waits for its callback -/

theorem Bounds.loopUnstarted {s : State} (hs : Bounds s) (q : QueueKind) :
    LoopUnstarted (s.queue q) := by
  intro huncreated
  rw [(hs.admits q).bounds.uncreated huncreated]
  exact ⟨rfl, rfl⟩

section
variable {m : Move} {s t : State} {q : QueueKind} {Q : Queue}

theorem OwnWrite.loopUnstarted (h : OwnWrite m s t q Q) (hs : LoopUnstarted (s.queue q)) :
    LoopUnstarted Q := by
  cases h with
  | none => exact hs
  | returned _ _ hphase => exact fun hc => absurd (hphase.symm.trans (hs hc).1) nofun
  | start _ hcreated => exact loopUnstarted_of_created hcreated
  | head _ henabled => exact loopUnstarted_of_created (created_of_headEnabled henabled)
  | overflowed _ henabled => exact loopUnstarted_of_created (created_of_headEnabled henabled)
  | asleep _ hcreated => exact loopUnstarted_of_created hcreated
  | counted _ hrun => exact loopUnstarted_of_created (created_of_runsJob hrun)
  | invoked _ hrun => exact loopUnstarted_of_created (created_of_runsJob hrun)
  | stopped _ hrun => exact loopUnstarted_of_created (created_of_runsJob hrun)

theorem OwnWrite.loopUnstarted_setQueue (h : OwnWrite m s t q Q)
    (hs : ∀ r, LoopUnstarted (s.queue r)) (r : QueueKind) :
    LoopUnstarted ((s.setQueue q Q).queue r) :=
  holds_queue_setQueue (P := LoopUnstarted) (hs r) fun _ => h.loopUnstarted (hs q)

/-- Only CB_RETURN of `q` ends the wait in Invoke: no loop step is enabled there (R177). -/
theorem OwnWrite.phase_of_invoke (h : OwnWrite m s t q Q) (hphase : (s.queue q).phase = .invoke)
    (hm : ∀ w, m = .command w → decode w ≠ .ok (.cbReturn q)) : Q.phase = .invoke := by
  have hhead (henabled : headEnabled q s) : False := (phase_ne_of_headEnabled henabled).2 hphase
  have hjob {i : Nat} {j : Job} (hrun : runsJob q i j s) : False :=
    absurd (hphase.symm.trans (phase_of_runsJob hrun)) nofun
  cases h with
  | none => exact hphase
  | returned hcommand hw => exact absurd hw (hm _ hcommand)
  | start _ _ hp => exact absurd (hphase.symm.trans hp) nofun
  | head _ henabled => exact (hhead henabled).elim
  | overflowed _ henabled => exact (hhead henabled).elim
  | asleep _ _ hp => exact absurd (hphase.symm.trans hp) nofun
  | counted _ hrun => exact (hjob hrun).elim
  | invoked _ hrun => exact (hjob hrun).elim
  | stopped _ hrun => exact (hjob hrun).elim

theorem Turn.phase_of_invoke {r : QueueKind} (h : Turn m s t)
    (hs : ∀ q, LoopUnstarted (s.queue q)) (hphase : (s.queue r).phase = .invoke)
    (hm : ∀ w, m = .command w → decode w ≠ .ok (.cbReturn r)) : (t.queue r).phase = .invoke := by
  obtain ⟨q, Q, hown, hfeeds⟩ := h
  rw [(hfeeds.fed.queue r).phase (hown.loopUnstarted_setQueue hs r)]
  by_cases hr : r = q
  · subst hr
    simpa using hown.phase_of_invoke hphase hm
  · rwa [queue_setQueue_of_ne _ _ _ _ hr]

end

/-- Settles O60: nothing but CB_RETURN ends the wait, and feeding does not move a loop that
exists. -/
theorem invokedLoopWaitsForReturn : Obligations.InvokedLoopWaitsForReturn := by
  intro q s t hs hphase hstep hmove hreturn
  have hsame := takeMove_sameScheduler s
  rw [← hsame.queue] at hphase
  exact (perform_turn hmove hstep).phase_of_invoke
    (fun r => by rw [hsame.queue]; exact hs.loopUnstarted r) hphase hreturn

/-! ### Identifiers -/

theorem jobIds_eq (s : State) : jobIds s = queueIds (s.queue .prio) ++ queueIds (s.queue .cbq) := by
  simp [jobIds, queueIds]

theorem jobIds_congr {s t : State} (h : ∀ q, queueIds (t.queue q) = queueIds (s.queue q)) :
    jobIds t = jobIds s := by
  rw [jobIds_eq, jobIds_eq, h, h]

theorem jobIds_setQueue_sublist {s : State} {q : QueueKind} {Q : Queue}
    (h : (queueIds Q).Sublist (queueIds (s.queue q))) :
    (jobIds (s.setQueue q Q)).Sublist (jobIds s) := by
  rw [jobIds_eq, jobIds_eq]
  cases q with
  | prio => exact h.append (.refl _)
  | cbq => exact (List.Sublist.refl _).append h

theorem jobIds_setQueue_perm {s : State} {q : QueueKind} {Q : Queue} {x : JobId}
    (h : queueIds Q = queueIds (s.queue q) ++ [x]) :
    (jobIds (s.setQueue q Q)).Perm (x :: jobIds s) := by
  rw [jobIds_eq, jobIds_eq]
  cases q with
  | prio =>
    rw [queue_setQueue, h, List.append_assoc]
    exact List.perm_middle
  | cbq =>
    rw [queue_setQueue, h, ← List.append_assoc]
    exact List.perm_append_singleton x _

section
variable {s t : State}

/-- Jobs may go, as long as ISSUED stays. -/
theorem Ids.of_sublist (hs : Ids s) (hparams : t.params = s.params) (hissued : t.issued = s.issued)
    (hjobs : (jobIds t).Sublist (jobIds s)) : Ids t where
  issued_nodup := hissued ▸ hs.issued_nodup
  issued_legal := by rw [hparams, hissued]; exact hs.issued_legal
  jobs_nodup := hs.jobs_nodup.sublist hjobs
  jobs_issued x hx := hissued ▸ hs.jobs_issued x (hjobs.subset hx)

theorem SameScheduler.ids (h : SameScheduler s t) (hs : Ids s) : Ids t :=
  hs.of_sublist h.params h.issued
    (jobIds_congr (s := s) (t := t) (fun q => by rw [h.queue]) ▸ .refl _)

/-- A drawn id is new, so ISSUED still repeats none (R164). -/
theorem Ids.withDrawnId (hs : Ids s) (hw : s.params.wId ≤ 32)
    (hids : s.issued.length + 1 < 2 ^ s.params.wId) : Ids (withDrawnId s) := by
  obtain ⟨hzero, hlt, hnew⟩ := drawnIdIsFresh s hw hids
  refine ⟨?_, fun x hx => ?_, hs.jobs_nodup,
    fun x hx => List.mem_append_left _ (hs.jobs_issued x hx)⟩
  · refine List.nodup_append.2 ⟨hs.issued_nodup, List.nodup_singleton _, fun a ha b hb => ?_⟩
    rw [List.mem_singleton.1 hb]
    exact fun hab => hnew (hab ▸ ha)
  · rcases List.mem_append.1 hx with hx | hx
    · exact hs.issued_legal x hx
    · rw [List.mem_singleton.1 hx]
      exact ⟨hzero, hlt⟩

/-- The job enqueued is the only one with the id just drawn. -/
theorem Ids.enqueued (hs : Ids s) (hw : s.params.wId ≤ 32)
    (hids : s.issued.length + 1 < 2 ^ s.params.wId) (q : QueueKind) (cb : Callback) (mode : Mode)
    (delay : Int) : Ids ((Machine.withDrawnId s).setQueue q
      (withNewJob (s.queue q) (newJob (drawnId s) cb mode delay))) := by
  obtain ⟨_, _, hnew⟩ := drawnIdIsFresh s hw hids
  have hdrawn := hs.withDrawnId hw hids
  have hperm := jobIds_setQueue_perm (s := Machine.withDrawnId s) (q := q)
    (queueIds_withNewJob (s.queue q) (newJob (drawnId s) cb mode delay))
  refine ⟨by simpa using hdrawn.issued_nodup, by simpa using hdrawn.issued_legal, ?_,
    fun x hx => ?_⟩
  · exact hperm.nodup_iff.2
      (List.nodup_cons.2 ⟨fun hx => hnew (hs.jobs_issued _ hx), hs.jobs_nodup⟩)
  · rw [setQueue_issued]
    rcases List.mem_cons.1 (hperm.mem_iff.1 hx) with rfl | hx
    · exact List.mem_append_right _ (List.mem_singleton.2 rfl)
    · exact hdrawn.jobs_issued x hx

theorem Feed.ids (h : Feed s t) (hw : s.params.wId ≤ 32) (hs : Ids s) : Ids t := by
  cases h with
  | other h => exact h.ids hs
  | draw hids => exact hs.withDrawnId hw hids
  | use q =>
    exact hs.of_sublist (setQueue_params ..) (setQueue_issued ..)
      (jobIds_setQueue_sublist (by simp [queueIds]))
  | enqueue q cb mode delay hids => exact hs.enqueued hw hids q cb mode delay
  | cancel q id =>
    exact hs.of_sublist (setQueue_params ..) (setQueue_issued ..)
      (jobIds_setQueue_sublist (.refl _))

theorem Feeds.ids (h : Feeds s t) (hw : s.params.wId ≤ 32) (hs : Ids s) : Ids t := by
  induction h with
  | refl => exact hs
  | tail hfeeds hfeed ih => exact hfeed.ids (Feeds.fed hfeeds |>.params ▸ hw) ih

end

section
variable {m : Move} {s t : State} {q : QueueKind} {Q : Queue}

theorem queueIds_drainedLive (Q : Queue) :
    ((drainedLive Q).map Job.id).Sublist (queueIds Q) :=
  (drainedLive_sublist Q).map Job.id

theorem queueIds_setJob {i : Nat} {j : Job} (hrun : runsJob q i j s) :
    ((s.queue q).live.set i (jobRun j (s.queue q).delta).job ++ (s.queue q).ins).map Job.id =
      queueIds (s.queue q) := by
  rw [queueIds, List.map_append, List.map_append, map_id_set_jobRun (getElem?_of_runsJob hrun)]

/-- No mover adds a job to its queue as its own write. -/
theorem OwnWrite.queueIds_sublist (h : OwnWrite m s t q Q) :
    (queueIds Q).Sublist (queueIds (s.queue q)) := by
  cases h with
  | none => exact .refl _
  | returned => exact .refl _
  | start => exact .refl _
  | head => simpa [queueIds, headQueue, drainedQueue] using queueIds_drainedLive (s.queue q)
  | overflowed => simp [queueIds, drainedQueue]
  | asleep => exact .refl _
  | counted _ hrun => exact (queueIds_setJob hrun).symm ▸ .refl _
  | invoked _ hrun => exact (queueIds_setJob hrun).symm ▸ .refl _
  | stopped _ hrun => exact (queueIds_setJob hrun).symm ▸ .refl _

theorem Turn.ids (h : Turn m s t) (hw : s.params.wId ≤ 32) (hs : Ids s) : Ids t := by
  obtain ⟨q, Q, hown, hfeeds⟩ := h
  refine hfeeds.ids (by rwa [setQueue_params]) ?_
  exact hs.of_sublist (setQueue_params ..) (setQueue_issued ..)
    (jobIds_setQueue_sublist hown.queueIds_sublist)

theorem perform_ids (hs : Bounds s) (hids : Ids s) (h : perform m s = .next t) : Ids t := by
  by_cases hm : m = .reset
  · rw [hm, perform_reset] at h
    cases h
    exact ⟨.nil, nofun, .nil, nofun⟩
  · exact (perform_turn hm h).ids hs.params.wId_le hids

end

/-- Settles O52: a mover's own write adds no job, and feeding adds jobs with newly drawn ids
only. -/
theorem stepKeepsIdentifiersUnique : Obligations.StepKeepsIdentifiersUnique :=
  fun s _ hs hids h => perform_ids
    (ignoresBookkeeping_bounds _ _ (takeMove_bookkeepingOnly s) hs)
    ((takeMove_sameScheduler s).ids hids) h

end Sys2Proof.Machine
end

section
/-! PROOFS. The countdown invariant (10_state.md R42, 44_scheduler.md R173 to R178): JobRun leaves
an overdue job only as a completed one, whose id then waits in REM[q]. -/

namespace Sys2Proof.Machine

/-! ### The countdown that JobRun leaves -/

theorem jobRun_mode (j : Job) (delta : Int) : (jobRun j delta).job.mode = j.mode := by
  obtain ⟨r, hr⟩ := jobRun_job j delta
  rw [hr]

/-- JobRun's cases as one disjunction (R173 to R176). -/
theorem jobRun_outcomes (j : Job) (delta : Int) :
    (delta ≤ 0 ∧ jobRun j delta = { job := j, fired := false, complete := false }) ∨
    (0 < delta ∧ 0 < j.remaining - delta ∧ jobRun j delta =
      { job := { j with remaining := j.remaining - delta }, fired := false, complete := false }) ∨
    (0 < delta ∧ j.remaining - delta ≤ 0 ∧ j.mode = .once ∧ jobRun j delta =
      { job := { j with remaining := j.remaining - delta }, fired := true, complete := true }) ∨
    (0 < delta ∧ j.remaining - delta ≤ 0 ∧ j.mode = .repeating ∧ jobRun j delta =
      { job := { j with remaining := j.delay }, fired := true, complete := false }) := by
  by_cases htime : delta ≤ 0
  · exact .inl ⟨htime, jobRun_of_noTime htime j⟩
  have htime := Int.not_le.1 htime
  by_cases hdue : j.remaining - delta ≤ 0
  · have hmodes : j.mode = .once ∨ j.mode = .repeating := by cases j.mode <;> simp
    rcases hmodes with hmode | hmode
    · exact .inr (.inr (.inl ⟨htime, hdue, hmode, jobRun_once htime hdue hmode⟩))
    · exact .inr (.inr (.inr ⟨htime, hdue, hmode, jobRun_repeating htime hdue hmode⟩))
  · have hleft := Int.not_le.1 hdue
    exact .inr (.inl ⟨htime, hleft, jobRun_counting htime hleft⟩)

section
variable {j : Job} {delta : Int}

/-- A countdown falls by the elapsed time at most. -/
theorem jobRun_remaining_ge (hdelta : 0 ≤ delta) (hj : 0 ≤ j.remaining) (hdelay : 0 ≤ j.delay) :
    -delta ≤ (jobRun j delta).job.remaining := by
  rcases jobRun_outcomes j delta with ⟨_, h⟩ | ⟨_, _, h⟩ | ⟨_, _, _, h⟩ | ⟨_, _, _, h⟩ <;>
    rw [h] <;> dsimp only <;> omega

theorem jobRun_complete_of_overdue (hj : 0 ≤ j.remaining) (hdelay : 0 ≤ j.delay)
    (hover : (jobRun j delta).job.remaining < 0) : (jobRun j delta).complete = true := by
  rcases jobRun_outcomes j delta with ⟨_, h⟩ | ⟨_, _, h⟩ | ⟨_, _, _, h⟩ | ⟨_, _, _, h⟩ <;>
    rw [h] at hover ⊢ <;> dsimp only at hover ⊢ <;> omega

theorem jobRun_complete_of_once (htime : 0 < delta) (hmode : j.mode = .once)
    (hdone : (jobRun j delta).job.remaining ≤ 0) : (jobRun j delta).complete = true := by
  rcases jobRun_outcomes j delta with ⟨hno, _⟩ | ⟨_, _, h⟩ | ⟨_, _, _, h⟩ | ⟨_, _, hrep, _⟩
  · omega
  · rw [h] at hdone
    dsimp only at hdone
    omega
  · rw [h]
  · exact absurd (hmode.symm.trans hrep) nofun

end

/-! ### The state of a pass -/

theorem jobIndex_injOn {q : QueueKind} {n p k : Nat} (hp : p < n) (hk : k < n)
    (h : jobIndex q n p = jobIndex q n k) : p = k := by
  cases q <;> simp only [jobIndex] at h <;> omega

section
variable {q : QueueKind} {Q R : Queue}

theorem nextPosition_of_run (h : Q.phase = .run) : nextPosition Q = Q.k := by
  simp only [nextPosition, h]

theorem nextPosition_of_invoke (h : Q.phase = .invoke) : nextPosition Q = Q.k + 1 := by
  simp only [nextPosition, h]

theorem nextPosition_congr (hlive : R.live = Q.live) (hphase : R.phase = Q.phase)
    (hk : R.k = Q.k) : nextPosition R = nextPosition Q := by
  simp only [nextPosition, hlive, hphase, hk]

theorem QueueFed.nextPosition (h : QueueFed Q R) (hQ : LoopUnstarted Q) :
    nextPosition R = nextPosition Q :=
  nextPosition_congr h.live (h.phase hQ) (h.k hQ)

/-- More removals, and a cursor that stands where it stood. -/
theorem PassState.mono (h : PassState q Q) (hlive : R.live = Q.live) (hdelta : R.delta = Q.delta)
    (hnext : nextPosition R = nextPosition Q) (hrem : ∀ x ∈ Q.rem, x ∈ R.rem) : PassState q R where
  pending := by rw [hlive, hnext]; exact h.pending
  overdue j hj hover := by
    obtain ⟨hmode, hid⟩ := h.overdue j (hlive ▸ hj) hover
    exact ⟨hmode, hrem _ hid⟩
  fired := by
    rw [hlive, hnext, hdelta]
    exact fun htime p hp hlt j hj hmode hdone => hrem _ (h.fired htime p hp hlt j hj hmode hdone)

theorem PassState.fed (h : PassState q Q) (hfed : QueueFed Q R) (hQ : LoopUnstarted Q) :
    PassState q R :=
  h.mono hfed.live hfed.delta (hfed.nextPosition hQ) hfed.rem

/-- A drained queue has no overdue job: their ids waited in REM[q] (R168, R169). -/
theorem PassState.head (h : PassState q Q) (hins : ∀ j ∈ Q.ins, 0 ≤ j.remaining) (now : Nat) :
    PassState q (headQueue now Q) := by
  have hnone : ∀ j ∈ drainedLive Q, 0 ≤ j.remaining := by
    intro j hj
    obtain ⟨hmem, hrem⟩ := List.mem_filter.1 hj
    rcases List.mem_append.1 hmem with hlive | hmem
    · by_contra hover
      exact of_decide_eq_true hrem (h.overdue j hlive (Int.not_le.1 hover)).2
    · exact hins j hmem
  refine ⟨fun p _ _ j hj => hnone j (List.mem_of_getElem? hj), fun j hj hover => ?_,
    fun _ p hp => absurd hp (Nat.not_lt_zero p)⟩
  exact absurd hover (Int.not_lt.2 (hnone j hj))

/-- RUNJOB on a pending job `j` moves the pass past it: of the jobs only `j` changes, and if `j` is
now overdue, or is a Once job that is due, then it completed and its id was put into REM[q]. -/
theorem PassState.ran (h : PassState q Q) {j : Job} (hphase : Q.phase = .run)
    (hk : Q.k < Q.live.length) (hj : Q.live[jobIndex q Q.live.length Q.k]? = some j)
    (hdelay : 0 ≤ j.delay) (hdelta : R.delta = Q.delta)
    (hlive : R.live = (ranQueue (jobIndex q Q.live.length Q.k) j Q).live)
    (hrem : R.rem = (ranQueue (jobIndex q Q.live.length Q.k) j Q).rem)
    (hnext : nextPosition R = Q.k + 1) : PassState q R := by
  have hcursor : nextPosition Q = Q.k := nextPosition_of_run hphase
  have hpending : 0 ≤ j.remaining := h.pending Q.k hcursor.le hk j hj
  have hkeep : ∀ x ∈ Q.rem, x ∈ R.rem := fun x hx => hrem ▸ List.mem_append_left _ hx
  have hadded (hcomplete : (jobRun j Q.delta).complete = true) : j.id ∈ R.rem := by
    simp [hrem, ranQueue, hcomplete]
  have hlength : R.live.length = Q.live.length := by simp [hlive, ranQueue]
  have hother {p : Nat} (hp : p < Q.live.length) (hne : p ≠ Q.k) :
      R.live[jobIndex q R.live.length p]? = Q.live[jobIndex q Q.live.length p]? := by
    rw [hlength, hlive]
    exact List.getElem?_set_ne fun heq => hne (jobIndex_injOn hp hk heq.symm)
  have hran : R.live[jobIndex q R.live.length Q.k]? = some (jobRun j Q.delta).job := by
    rw [hlength, hlive]
    exact List.getElem?_set_self (jobIndex_lt q hk)
  refine ⟨fun p hp hlt j' hj' => ?_, fun j' hj' hover => ?_,
    fun htime p hp hlt j' hj' hmode hdone => ?_⟩
  · rw [hother (by omega) (by omega)] at hj'
    exact h.pending p (by omega) (by omega) j' hj'
  · rw [hlive] at hj'
    rcases List.mem_or_eq_of_mem_set hj' with hold | rfl
    · obtain ⟨hmode, hid⟩ := h.overdue j' hold hover
      exact ⟨hmode, hkeep _ hid⟩
    · have hcomplete := jobRun_complete_of_overdue hpending hdelay hover
      rw [jobRun_mode, jobRun_id]
      exact ⟨(jobRun_complete j Q.delta hcomplete).2, hadded hcomplete⟩
  · by_cases hpk : p = Q.k
    · subst hpk
      rw [hran] at hj'
      obtain rfl := Option.some.inj hj'
      rw [jobRun_mode] at hmode
      rw [jobRun_id]
      exact hadded (jobRun_complete_of_once (hdelta ▸ htime) hmode hdone)
    · rw [hother (by omega) hpk] at hj'
      exact hkeep _ (h.fired (hdelta ▸ htime) p (by omega) (by omega) j' hj' hmode hdone)

end

/-! ### The mover's own write -/

section
variable {m : Move} {s t : State} {q : QueueKind} {Q : Queue}

/-- The job that RUNJOB runs has not run in this pass, and its delay is not negative. -/
theorem pending_of_runsJob {i : Nat} {j : Job} (hs : Bounds s) (hpass : PassState q (s.queue q))
    (hrun : runsJob q i j s) : 0 ≤ j.remaining ∧ 0 ≤ j.delay := by
  have hget := getElem?_of_runsJob hrun
  have hphase := phase_of_runsJob hrun
  exact ⟨hpass.pending _ (nextPosition_of_run hphase).le (cursor_lt_of_runsJob hrun) j
      (index_eq_jobIndex hrun ▸ hget),
    ((hs.admits q).bounds.live_jobs j (List.mem_of_getElem? hget)).1⟩

theorem PassState.ran_of_runsJob {i : Nat} {j : Job} {R : Queue} (hpass : PassState q (s.queue q))
    (hs : Bounds s) (hrun : runsJob q i j s) (hdelta : R.delta = (s.queue q).delta)
    (hlive : R.live = (ranQueue i j (s.queue q)).live)
    (hrem : R.rem = (ranQueue i j (s.queue q)).rem)
    (hnext : nextPosition R = (s.queue q).k + 1) : PassState q R := by
  obtain ⟨_, hdelay⟩ := pending_of_runsJob hs hpass hrun
  have hget := getElem?_of_runsJob hrun
  obtain rfl := index_eq_jobIndex hrun
  exact hpass.ran (phase_of_runsJob hrun) (cursor_lt_of_runsJob hrun) hget hdelay hdelta hlive hrem
    hnext

theorem OwnWrite.passState (h : OwnWrite m s t q Q) (hs : Bounds s)
    (ht : t.faultCause = Option.none) (hpass : PassState q (s.queue q)) : PassState q Q := by
  have hrem : ∀ x ∈ (s.queue q).rem, x ∈ (s.queue q).rem := fun _ => id
  cases h with
  | none => exact hpass
  | returned _ _ hphase => exact hpass.mono rfl rfl (nextPosition_of_invoke hphase).symm hrem
  | start _ _ hphase => exact hpass.mono rfl rfl (by simp only [nextPosition, hphase]) hrem
  | head =>
    refine hpass.head (fun j hj => ?_) s.now
    obtain ⟨hdelay, _, heq⟩ := (hs.admits q).bounds.ins_jobs j hj
    exact heq ▸ hdelay
  | overflowed _ _ hfault => exact absurd ht hfault
  | asleep _ _ hphase hk => exact hpass.mono rfl rfl (by simp only [nextPosition, hphase, hk]) hrem
  | counted _ hrun =>
    exact hpass.ran_of_runsJob hs hrun rfl rfl rfl (nextPosition_of_run (phase_of_runsJob hrun))
  | invoked _ hrun =>
    exact hpass.ran_of_runsJob hs hrun rfl rfl rfl (nextPosition_of_invoke rfl)
  | stopped _ _ hfault => exact absurd ht hfault

/-- The lower bound of a countdown, which u(W_TIME) elapsed times keep (10_state.md R42). -/
def CountdownsFrom (p : Params) (Q : Queue) : Prop :=
  ∀ j ∈ Q.live, -((2 : Int) ^ p.wTime - 1) ≤ j.remaining

theorem countdowns_iff (s : State) : Countdowns s ↔
    ∀ q, (s.faultCause = none → PassState q (s.queue q)) ∧ CountdownsFrom s.params (s.queue q) := by
  constructor
  · intro h q
    cases q with
    | prio =>
      exact ⟨fun hs => h.prio ((faulted_eq_false s).2 hs),
        fun j hj => h.remaining_ge j (List.mem_append_left _ hj)⟩
    | cbq =>
      exact ⟨fun hs => h.cbq ((faulted_eq_false s).2 hs),
        fun j hj => h.remaining_ge j (List.mem_append_right _ hj)⟩
  · intro h
    refine ⟨fun hs => (h .prio).1 ((faulted_eq_false s).1 hs),
      fun hs => (h .cbq).1 ((faulted_eq_false s).1 hs), fun j hj => ?_⟩
    rcases List.mem_append.1 hj with hj | hj
    · exact (h .prio).2 j hj
    · exact (h .cbq).2 j hj

theorem Bounds.delta_lt (hs : Bounds s) (q : QueueKind) :
    (s.queue q).delta ≤ (2 : Int) ^ s.params.wTime - 1 := by
  have hnow : (s.now : Int) < 2 ^ s.params.wTime := by exact_mod_cast hs.now_lt
  have hle := (hs.admits q).bounds.delta_le
  omega

theorem CountdownsFrom.ran {i : Nat} {j : Job} (hfrom : CountdownsFrom s.params (s.queue q))
    (hs : Bounds s) (hpass : PassState q (s.queue q)) (hrun : runsJob q i j s) :
    CountdownsFrom s.params (ranQueue i j (s.queue q)) := by
  intro j' hj'
  rcases List.mem_or_eq_of_mem_set hj' with hold | rfl
  · exact hfrom j' hold
  · obtain ⟨hpending, hdelay⟩ := pending_of_runsJob hs hpass hrun
    have hge := jobRun_remaining_ge (hs.admits q).bounds.delta_nonneg hpending hdelay
    have hlt := hs.delta_lt q
    omega

theorem CountdownsFrom.head (hfrom : CountdownsFrom s.params (s.queue q)) (hs : Bounds s) :
    CountdownsFrom s.params (headQueue s.now (s.queue q)) := by
  intro j hj
  rcases List.mem_append.1 ((drainedLive_sublist _).subset hj) with hj | hj
  · exact hfrom j hj
  · obtain ⟨hdelay, _, heq⟩ := (hs.admits q).bounds.ins_jobs j hj
    have hpos : (0 : Int) < 2 ^ s.params.wTime := by positivity
    omega

theorem OwnWrite.countdownsFrom (h : OwnWrite m s t q Q) (hs : Bounds s) (hc : Countdowns s) :
    CountdownsFrom s.params Q := by
  obtain ⟨hpass, hfrom⟩ := (countdowns_iff s).1 hc q
  have hran {i : Nat} {j : Job} (hrun : runsJob q i j s) :
      CountdownsFrom s.params (ranQueue i j (s.queue q)) :=
    hfrom.ran hs (hpass (unfaulted_of_runsJob hrun)) hrun
  cases h with
  | none => exact hfrom
  | returned => exact hfrom
  | start => exact hfrom
  | head => exact hfrom.head hs
  | overflowed => exact hfrom
  | asleep => exact hfrom
  | counted _ hrun => exact hran hrun
  | invoked _ hrun => exact hran hrun
  | stopped _ hrun => exact hran hrun

/-! ### The whole step -/

theorem Turn.countdowns (h : Turn m s t) (hs : Bounds s) (hc : Countdowns s) : Countdowns t := by
  obtain ⟨q, Q, hown, hfeeds⟩ := h
  obtain ⟨hqueue, hparams, hunfaulted, _, _, _⟩ := hfeeds.fed
  rw [setQueue_params] at hparams
  rw [setQueue_faultCause] at hunfaulted
  have hold := (countdowns_iff s).1 hc
  refine (countdowns_iff t).2 fun r => ⟨fun ht => ?_, ?_⟩
  · have hpass (r : QueueKind) : PassState r (s.queue r) := (hold r).1 (hunfaulted ht)
    refine PassState.fed ?_ (hqueue r) (hown.loopUnstarted_setQueue hs.loopUnstarted r)
    refine holds_queue_setQueue (hpass r) ?_
    rintro rfl
    exact hown.passState hs ht (hpass r)
  · rw [CountdownsFrom, hparams, (hqueue r).live]
    exact holds_queue_setQueue (P := CountdownsFrom s.params) (hold r).2
      fun _ => hown.countdownsFrom hs hc

theorem resetBlock_countdowns (s : State) : Countdowns (resetBlock s) := by
  have hpass (q : QueueKind) : PassState q (Queue.initial s.params) :=
    ⟨fun _ _ => nofun, nofun, fun _ _ _ => nofun⟩
  exact ⟨fun _ => hpass .prio, fun _ => hpass .cbq, nofun⟩

theorem perform_countdowns (hs : Bounds s) (hc : Countdowns s) (h : perform m s = .next t) :
    Countdowns t := by
  by_cases hm : m = .reset
  · rw [hm, perform_reset] at h
    cases h
    exact resetBlock_countdowns s
  · exact (perform_turn hm h).countdowns hs hc

theorem SameScheduler.countdowns (h : SameScheduler s t) (hc : Countdowns s) : Countdowns t := by
  have hold := (countdowns_iff s).1 hc
  refine (countdowns_iff t).2 fun q => ?_
  rw [h.queue, h.params]
  exact ⟨fun ht => (hold q).1 (h.unfaulted ht), (hold q).2⟩

end

/-- Settles O53: RUNJOB moves the pass past the one job it changes, HEAD drops what is overdue, and
feeding leaves the pass. -/
theorem stepKeepsCountdowns : Obligations.StepKeepsCountdowns :=
  fun s _ hs _ hc h => perform_countdowns
    (ignoresBookkeeping_bounds _ _ (takeMove_bookkeepingOnly s) hs)
    ((takeMove_sameScheduler s).countdowns hc) h

end Sys2Proof.Machine
end

section
/-! PROOFS. Cancellation (44_scheduler.md R165, R169, R182): an id in REM[q] stays there until HEAD
has dropped its job, an issued id is never drawn again, and a pass gives each job one turn. -/

namespace Sys2Proof.Machine

/-! ### Every move gives a next state -/

theorem exec_next (i : Instr) (s : State) : ∃ t, exec i s = .next t := by
  cases i with
  | readState q sel =>
    simp only [exec, execReadState]
    split <;> exact ⟨_, rfl⟩
  | nop => exact ⟨_, rfl⟩
  | connect => exact ⟨_, rfl⟩
  | onButton => exact ⟨_, rfl⟩
  | schedule => exact ⟨_, rfl⟩
  | cancel => exact ⟨_, rfl⟩
  | queryDatagram => exact ⟨_, rfl⟩
  | cbReturn => exact ⟨_, rfl⟩

theorem perform_next (m : Move) (s : State) : ∃ t, perform m s = .next t := by
  unfold perform
  split
  · cases m with
    | command w =>
      simp only [runCommand]
      split
      · exact exec_next ..
      · exact ⟨_, rfl⟩
    | pulse => exact ⟨_, rfl⟩
    | edge => exact ⟨_, rfl⟩
    | tick => exact ⟨_, rfl⟩
    | reset => exact ⟨_, rfl⟩
    | loop => exact ⟨_, rfl⟩
  · exact ⟨_, rfl⟩

theorem perform_afterMove (m : Move) (s : State) : perform m s = .next (afterMove m s) := by
  obtain ⟨t, ht⟩ := perform_next m s
  rw [afterMove, ht]

/-! ### Marked or gone -/

/-- The id waits for its removal, or names no job of the queue. -/
def MarkedOrGone (id : JobId) (Q : Queue) : Prop := id ∈ Q.rem ∨ id ∉ queueIds Q

section
variable {m : Move} {s t : State} {q r : QueueKind} {Q R : Queue} {id : JobId}

theorem not_mem_queueIds_headQueue (hmarked : id ∈ Q.rem) (now : Nat) :
    id ∉ queueIds (headQueue now Q) := by
  intro hmem
  obtain ⟨j, hj, rfl⟩ := List.mem_map.1 hmem
  have hlive : j ∈ drainedLive Q := by simpa [headQueue, drainedQueue] using hj
  exact of_decide_eq_true (List.mem_filter.1 hlive).2 hmarked

/-- Only HEAD empties REM[q], and it drops the marked jobs (R169). -/
theorem OwnWrite.markedOrGone (h : OwnWrite m s t q Q) (ht : t.faultCause = Option.none)
    (hs : MarkedOrGone id (s.queue q)) : MarkedOrGone id Q := by
  rcases hs with hmarked | hgone
  · cases h with
    | none => exact .inl hmarked
    | returned => exact .inl hmarked
    | start => exact .inl hmarked
    | head => exact .inr (not_mem_queueIds_headQueue hmarked s.now)
    | overflowed _ _ hfault => exact absurd ht hfault
    | asleep => exact .inl hmarked
    | counted => exact .inl (List.mem_append_left _ hmarked)
    | invoked => exact .inl (List.mem_append_left _ hmarked)
    | stopped _ _ hfault => exact absurd ht hfault
  · exact .inr fun hmem => hgone (h.queueIds_sublist.subset hmem)

/-- Feeding keeps the marks, and gives no new job an issued id. -/
theorem Turn.markedOrGone (h : Turn m s t) (hw : s.params.wId ≤ 32) (hissued : id ∈ s.issued)
    (ht : t.faultCause = none) (hs : MarkedOrGone id (s.queue r)) :
    MarkedOrGone id (t.queue r) := by
  obtain ⟨q, Q, hown, hfeeds⟩ := h
  have hfed := hfeeds.fed
  have hset : MarkedOrGone id ((s.setQueue q Q).queue r) :=
    holds_queue_setQueue hs (by rintro rfl; exact hown.markedOrGone ht hs)
  rcases hset with hmarked | hgone
  · exact .inl ((hfed.queue r).rem id hmarked)
  · refine .inr fun hmem => ?_
    rcases hfed.ids (by rwa [setQueue_params]) r id hmem with hold | hnew
    · exact hgone hold
    · exact hnew (by rwa [setQueue_issued])

theorem Turn.unfaulted (h : Turn m s t) (ht : t.faultCause = none) : s.faultCause = none := by
  obtain ⟨q, Q, _, hfeeds⟩ := h
  simpa using hfeeds.fed.unfaulted ht

theorem Turn.unrefused (h : Turn m s t) (ht : t.refused = false) : s.refused = false := by
  obtain ⟨q, Q, _, hfeeds⟩ := h
  simpa using hfeeds.fed.unrefused ht

theorem Turn.issued (h : Turn m s t) (hs : id ∈ s.issued) : id ∈ t.issued := by
  obtain ⟨q, Q, _, hfeeds⟩ := h
  exact hfeeds.fed.issued id (by simpa using hs)

/-- What a cancellation leaves and every later step but RESET keeps. -/
structure Cancelled (q : QueueKind) (id : JobId) (s : State) : Prop where
  bounds : Bounds s
  ids : Ids s
  issued : id ∈ s.issued
  markedOrGone : s.faultCause = none → MarkedOrGone id (s.queue q)

theorem Cancelled.step (h : Cancelled q id s) (hm : m ≠ .reset) :
    Cancelled q id (afterMove m s) := by
  have hp := perform_afterMove m s
  have hturn := perform_turn hm hp
  exact ⟨perform_bounds m h.bounds hp, perform_ids h.bounds h.ids hp, hturn.issued h.issued,
    fun ht => hturn.markedOrGone h.bounds.params.wId_le h.issued ht
      (h.markedOrGone (hturn.unfaulted ht))⟩

theorem Cancelled.steps {ms : List Move} (h : Cancelled q id s) (hms : Move.reset ∉ ms) :
    Cancelled q id (afterMoves ms s) := by
  induction ms generalizing s with
  | nil => exact h
  | cons m ms ih =>
    obtain ⟨hm, hms⟩ := not_or.1 (mt List.mem_cons.2 hms)
    exact ih (h.step (Ne.symm hm)) hms

/-! ### The turn that a pass has left for a job -/

/-- The pass under way will still come to the job with this id. -/
def TurnLeft (q : QueueKind) (id : JobId) (Q : Queue) : Prop :=
  ∃ p, nextPosition Q ≤ p ∧ p < Q.live.length ∧
    (Q.live.map Job.id)[jobIndex q Q.live.length p]? = some id

theorem TurnLeft.of_later (h : TurnLeft q id R) (hids : R.live.map Job.id = Q.live.map Job.id)
    (hnext : nextPosition Q ≤ nextPosition R) : TurnLeft q id Q := by
  have hlength : R.live.length = Q.live.length := by simpa using congrArg List.length hids
  obtain ⟨p, hp, hlt, hid⟩ := h
  rw [hids, hlength] at hid
  exact ⟨p, hnext.trans hp, hlength ▸ hlt, hid⟩

theorem TurnLeft.mem (h : TurnLeft q id Q) : id ∈ queueIds Q := by
  obtain ⟨p, _, _, hid⟩ := h
  rw [queueIds, List.map_append]
  exact List.mem_append_left _ (List.mem_of_getElem? hid)

/-- Once the cursor has passed the job, the pass does not come to it again, as no other live job has
its id. -/
theorem not_turnLeft_of_past (hids : R.live.map Job.id = Q.live.map Job.id)
    (hnext : nextPosition R = Q.k + 1) (hk : Q.k < Q.live.length)
    (hid : (Q.live.map Job.id)[jobIndex q Q.live.length Q.k]? = some id)
    (hnodup : (Q.live.map Job.id).Nodup) : ¬ TurnLeft q id R := by
  have hlength : R.live.length = Q.live.length := by simpa using congrArg List.length hids
  rintro ⟨p, hp, hlt, hpid⟩
  rw [hids, hlength] at hpid
  have hlt : p < Q.live.length := hlength ▸ hlt
  have hindex := (List.getElem?_inj (by simpa using jobIndex_lt q hlt) hnodup).1
    (hpid.trans hid.symm)
  have hpk := jobIndex_injOn hlt hk hindex
  omega

/-- No mover gives the pass a new turn for a job that is marked or gone. -/
theorem OwnWrite.turnLeft (h : OwnWrite m s t q Q) (ht : t.faultCause = Option.none)
    (hs : MarkedOrGone id (s.queue q)) (hleft : TurnLeft q id Q) : TurnLeft q id (s.queue q) := by
  have hQ := h.markedOrGone ht hs
  have hran {i : Nat} {j : Job} (hrun : runsJob q i j s) {R : Queue}
      (hleft : TurnLeft q id R) (hlive : R.live = (ranQueue i j (s.queue q)).live)
      (hnext : nextPosition R = (s.queue q).k + 1) : TurnLeft q id (s.queue q) := by
    refine hleft.of_later ?_ ?_
    · rw [hlive]
      exact map_id_set_jobRun (getElem?_of_runsJob hrun) _
    · rw [nextPosition_of_run (phase_of_runsJob hrun), hnext]
      exact Nat.le_succ _
  cases h with
  | none => exact hleft
  | returned _ _ hphase => exact hleft.of_later rfl (nextPosition_of_invoke hphase).le
  | start _ _ hphase => exact hleft.of_later rfl (by simp only [nextPosition, hphase]; exact le_rfl)
  | head => exact absurd hleft.mem (hQ.resolve_left List.not_mem_nil)
  | overflowed _ _ hfault => exact absurd ht hfault
  | asleep _ _ hphase hk =>
    exact hleft.of_later rfl (by simp only [nextPosition, hphase, hk]; exact le_rfl)
  | counted _ hrun => exact hran hrun hleft rfl (nextPosition_of_run (phase_of_runsJob hrun))
  | invoked _ hrun => exact hran hrun hleft rfl (nextPosition_of_invoke rfl)
  | stopped _ _ hfault => exact absurd ht hfault

theorem Ids.live_nodup (h : Ids s) (q : QueueKind) : ((s.queue q).live.map Job.id).Nodup := by
  refine h.jobs_nodup.sublist ?_
  have hqueue : ((s.queue q).live.map Job.id).Sublist (queueIds (s.queue q)) := by
    rw [queueIds, List.map_append]
    exact List.sublist_append_left ..
  refine hqueue.trans ?_
  rw [jobIds_eq]
  cases q with
  | prio => exact List.sublist_append_left ..
  | cbq => exact List.sublist_append_right ..

theorem id_of_runsJob {i : Nat} {j : Job} (hrun : runsJob q i j s) :
    ((s.queue q).live.map Job.id)[jobIndex q (s.queue q).live.length (s.queue q).k]? =
      some j.id := by
  rw [← index_eq_jobIndex hrun, List.getElem?_map, getElem?_of_runsJob hrun]
  rfl

theorem turnLeft_of_runsJob {i : Nat} {j : Job} (hrun : runsJob q i j s) :
    TurnLeft q j.id (s.queue q) :=
  ⟨_, (nextPosition_of_run (phase_of_runsJob hrun)).le, cursor_lt_of_runsJob hrun,
    id_of_runsJob hrun⟩

/-- A RUNJOB that is neither refused nor stopped takes the turn of its job. -/
theorem OwnWrite.not_turnLeft {i : Nat} {j : Job} (h : OwnWrite (.loop r) s t q Q)
    (hids : Ids s) (hrun : runsJob r i j s) (hrefused : t.refused = false)
    (ht : t.faultCause = Option.none) : r = q ∧ ¬ TurnLeft r j.id Q := by
  have hphase := phase_of_runsJob hrun
  have hk := cursor_lt_of_runsJob hrun
  have hran {i' : Nat} {j' : Job} (hrun' : runsJob r i' j' s) {R : Queue}
      (hlive : R.live = (ranQueue i' j' (s.queue r)).live)
      (hnext : nextPosition R = (s.queue r).k + 1) : ¬ TurnLeft r j.id R := by
    refine not_turnLeft_of_past ?_ hnext hk (id_of_runsJob hrun) (hids.live_nodup r)
    rw [hlive]
    exact map_id_set_jobRun (getElem?_of_runsJob hrun') _
  cases h with
  | none hnone => exact absurd ((hnone r i j rfl hrun).symm.trans hrefused) (by decide)
  | returned hm => exact absurd hm nofun
  | start hm _ hp => cases hm; exact absurd (hphase.symm.trans hp) nofun
  | head hm henabled => cases hm; exact absurd hphase (phase_ne_of_headEnabled henabled).1
  | overflowed _ _ hfault => exact absurd ht hfault
  | asleep hm _ _ hend => cases hm; exact absurd hend hk.ne
  | counted hm hrun' =>
    cases hm
    exact ⟨rfl, hran hrun' rfl (nextPosition_of_run (phase_of_runsJob hrun'))⟩
  | invoked hm hrun' =>
    cases hm
    exact ⟨rfl, hran hrun' rfl (nextPosition_of_invoke rfl)⟩
  | stopped _ _ hfault => exact absurd ht hfault

/-! ### Firing -/

/-- The job with this id can fire in the pass under way. -/
def MayFire (q : QueueKind) (id : JobId) (s : State) : Prop :=
  s.faultCause = none ∧ TurnLeft q id (s.queue q)

theorem runsJob_of_firesJob (h : firesJob q id m s = true) :
    m = .loop q ∧ ∃ i j, runsJob q i j s ∧ j.id = id := by
  simp only [firesJob, Bool.and_eq_true, decide_eq_true_eq, Bool.not_eq_true'] at h
  obtain ⟨⟨⟨⟨⟨hm, hcreated⟩, hfaulted⟩, hphase⟩, hk⟩, hjob⟩ := h
  obtain ⟨j, hrun⟩ := exists_runsJob hcreated ((faulted_eq_false s).1 hfaulted) hphase hk
  rw [getElem?_of_runsJob hrun] at hjob
  simp only [Bool.and_eq_true, decide_eq_true_eq] at hjob
  exact ⟨hm, _, j, hrun, hjob.1⟩

theorem Cancelled.mayFire_of_after (h : Cancelled q id s) (hm : m ≠ .reset)
    (hafter : MayFire q id (afterMove m s)) : MayFire q id s := by
  obtain ⟨ht, hleft⟩ := hafter
  have hturn := perform_turn hm (perform_afterMove m s)
  have hs := hturn.unfaulted ht
  obtain ⟨q', Q, hown, hfeeds⟩ := hturn
  have hfed := hfeeds.fed.queue q
  have hunstarted := hown.loopUnstarted_setQueue h.bounds.loopUnstarted q
  have hset : TurnLeft q id ((s.setQueue q' Q).queue q) :=
    hleft.of_later (by rw [hfed.live]) (hfed.nextPosition hunstarted).ge
  refine ⟨hs, ?_⟩
  refine holds_queue_setQueue (P := fun R => TurnLeft q id R → TurnLeft q id (s.queue q))
    (fun hleft => hleft) ?_ hset
  rintro rfl
  exact hown.turnLeft ht (h.markedOrGone hs)

theorem Cancelled.mayFire_of_fires (h : Cancelled q id s) (hfires : firesJob q id m s = true)
    (hrefused : (afterMove m s).refused = false) :
    MayFire q id s ∧ ¬ MayFire q id (afterMove m s) := by
  obtain ⟨rfl, i, j, hrun, rfl⟩ := runsJob_of_firesJob hfires
  refine ⟨⟨unfaulted_of_runsJob hrun, turnLeft_of_runsJob hrun⟩, fun ⟨ht, hleft⟩ => ?_⟩
  obtain ⟨q', Q, hown, hfeeds⟩ := perform_turn (m := .loop q) nofun (perform_afterMove _ s)
  obtain ⟨rfl, hpast⟩ := hown.not_turnLeft h.ids hrun hrefused ht
  have hfed := hfeeds.fed.queue q
  have hunstarted := hown.loopUnstarted_setQueue h.bounds.loopUnstarted q
  have hset := hleft.of_later (by rw [hfed.live]) (hfed.nextPosition hunstarted).ge
  exact hpast (by simpa using hset)

theorem unrefused_of_afterMoves {ms : List Move} (hms : Move.reset ∉ ms)
    (h : (afterMoves ms s).refused = false) : s.refused = false := by
  induction ms generalizing s with
  | nil => exact h
  | cons m ms ih =>
    obtain ⟨hm, hms⟩ := not_or.1 (mt List.mem_cons.2 hms)
    exact (perform_turn (Ne.symm hm) (perform_afterMove m s)).unrefused (ih hms h)

/-- The one turn that may be left is the one firing that may be left (R182). -/
theorem Cancelled.firings_le {ms : List Move} (h : Cancelled q id s) (hms : Move.reset ∉ ms)
    (hrefused : (afterMoves ms s).refused = false) :
    firings q id ms s ≤ 1 ∧ (¬ MayFire q id s → firings q id ms s = 0) := by
  induction ms generalizing s with
  | nil => exact ⟨Nat.zero_le _, fun _ => rfl⟩
  | cons m ms ih =>
    obtain ⟨hm, hms⟩ := not_or.1 (mt List.mem_cons.2 hms)
    have hm := Ne.symm hm
    obtain ⟨hle, hzero⟩ := ih (h.step hm) hms hrefused
    rw [firings]
    cases hfires : firesJob q id m s with
    | true =>
      obtain ⟨hmay, hdone⟩ := h.mayFire_of_fires hfires (unrefused_of_afterMoves hms hrefused)
      rw [hzero hdone]
      exact ⟨le_rfl, fun hno => absurd hmay hno⟩
    | false =>
      rw [Bool.toNat_false, Nat.zero_add]
      exact ⟨hle, fun hno => hzero (mt (h.mayFire_of_after hm) hno)⟩

end

/-- Settles O54: the cancelled id is marked or gone ever after, and its job fires at most in the
turn that the pass under way has left for it. -/
theorem cancelledJobDisappears : Obligations.CancelledJobDisappears := by
  intro q id s ms hs hids hrem hissued hms
  have hcancelled : Cancelled q id s := ⟨hs, hids, hissued, fun _ => .inl hrem⟩
  refine ⟨fun hfault => ?_, fun hrefused => ?_⟩
  · refine ((hcancelled.steps hms).markedOrGone hfault).imp_right fun hgone j hj hid => ?_
    exact hgone (List.mem_map.2 ⟨j, hj, hid⟩)
  · obtain ⟨hle, hzero⟩ := hcancelled.firings_le hms hrefused
    refine ⟨hle, fun hnoturn => hzero ?_⟩
    rintro ⟨_, p, hp, hlt, hid⟩
    rw [List.getElem?_map] at hid
    obtain ⟨j, hj, hjid⟩ := Option.map_eq_some_iff.1 hid
    exact hnoturn p hp hlt j hj hjid

end Sys2Proof.Machine
end

section
/-! PROOFS. The host commands of 45_host_commands.md: the command step (R200), what each command but
SCHEDULE and CANCEL answers and writes (R201 to R206), and the values READ_STATE gives
(30_encoding.md R89). -/

namespace Sys2Proof.Machine

/-! ### The command step -/

theorem perform_command (w : Word) (s : State) : perform (.command w) s = runCommand w s := rfl

theorem runCommand_of_decode {w : Word} {i : Instr} (h : decode w = .ok i) (s : State) :
    runCommand w s = exec i s := by
  rw [runCommand, h]

/-- Settles O5: the command on the agenda is the move taken, and its word is a decoded one. -/
theorem stepRunsDecodedCommand : Obligations.StepRunsDecodedCommand := by
  intro s w rest i hagenda hdecode _
  rw [step_of_agenda hagenda, perform_command, runCommand_of_decode hdecode]

/-! ### NOP and QUERY_DATAGRAM -/

/-- Settles O9: the fault decides which response is sent. -/
theorem nopAnswersOk : Obligations.NopAnswersOk := by
  intro s
  by_cases hs : s.faultCause = none
  · rw [if_pos hs]
    exact congrArg Host.Outcome.next (command_of_unfaulted _ s hs)
  · rw [if_neg hs]
    exact congrArg Host.Outcome.next (command_of_faulted _ s hs)

theorem setWidth_ofBool (b : Bool) : (BitVec.ofBool b).setWidth 32 = if b then 1 else 0 := by
  cases b <;> rfl

/-- Settles O18: the value answered is the flag as the step found it. -/
theorem queryReadsAndClearsFlag : Obligations.QueryReadsAndClearsFlag := by
  intro s
  by_cases hs : s.faultCause = none
  · rw [if_pos hs, ← setWidth_ofBool]
    exact congrArg Host.Outcome.next (command_of_unfaulted _ s hs)
  · rw [if_neg hs]
    exact congrArg Host.Outcome.next (command_of_faulted _ s hs)

/-! ### CONNECT -/

theorem exec_connect {s : State} (hs : s.faultCause = none) (pr : Protocol) (pin : BitVec 8) :
    exec (.connect pr pin) s = .next (answer s (connectBody pr s)) :=
  congrArg Host.Outcome.next (command_of_unfaulted _ s hs)

theorem connectBody_of_connected {s : State} (h : s.conn = true) (pr : Protocol) :
    connectBody pr s = .done 0 (ensureInit s) := if_pos h

/-- The record as the first CONNECT sets it, before it makes the repeat-check job (R202). -/
def startDetection (pr : Protocol) (s : State) : State :=
  { s with init := true, conn := true, proto := pr, markLatch := 0 }

@[simp] theorem startDetection_params (pr : Protocol) (s : State) :
    (startDetection pr s).params = s.params := rfl

@[simp] theorem startDetection_issued (pr : Protocol) (s : State) :
    (startDetection pr s).issued = s.issued := rfl

@[simp] theorem startDetection_queue (pr : Protocol) (s : State) (q : QueueKind) :
    (startDetection pr s).queue q = s.queue q := by cases q <;> rfl

theorem connectBody_of_unconnected {s : State} (h : s.conn = false) (pr : Protocol) :
    connectBody pr s =
      (internalSchedule true .repeatCheck .prio .repeating 120 (startDetection pr s)).andThen
        fun _ t => .done 0 t := if_neg (by simp [h])

/-- The shrink of R163 by the repeat-check job, whose delay is 120. -/
theorem shrunkPoll_repeatCheck (m : Nat) :
    shrunkPoll .repeating 120 m = if 120 < m then 120 else m := by
  by_cases h : 120 < m <;> simp [shrunkPoll, h]

/-- Settles O10: with an id left, the repeat-check job finds room in INS[PRIO] or faults there, over
the record that the first CONNECT has set. -/
theorem firstConnectStartsDetection : Obligations.FirstConnectStartsDetection := by
  intro pr pin s hs hconn hids
  dsimp only
  rw [exec_connect hs, connectBody_of_unconnected hconn,
    internalSchedule_eq _ _ _ _ _ (startDetection pr s) hs, startDetection_params,
    startDetection_issued, startDetection_queue, queue_prio, if_neg (by decide),
    if_neg (Nat.not_le.2 hids), ← shrunkPoll_repeatCheck]
  by_cases hroom : s.prio.ins.length < s.params.insCap
  · rw [if_pos hroom, if_pos hroom]
    rfl
  · rw [if_neg hroom, if_neg hroom]
    rfl

/-- Settles O11: the body of a second CONNECT is EnsureInit alone. -/
theorem secondConnectDoesNothing : Obligations.SecondConnectDoesNothing := by
  intro pr pin s hs hconn
  rw [exec_connect hs, connectBody_of_connected hconn]
  rfl

/-! ### Answers to an ILLEGAL command -/

theorem illegalCommand_of_unfaulted {s : State} (hs : s.faultCause = none) :
    illegalCommand s = { s with outputs := answered s .illegal 0 } := by
  rw [illegalCommand, (faulted_eq_false s).2 hs]
  rfl

theorem illegalCommand_of_faulted {s : State} (hs : s.faultCause ≠ none) :
    illegalCommand s = { s with outputs := answered s .faulted 0 } := by
  rw [illegalCommand, (faulted_eq_true s).2 hs]
  rfl

/-! ### ON_BUTTON -/

/-- A binding goes to the tail of its kind's list. -/
def withBinding (kind : Transition) (b : Binding) (s : State) : State :=
  match kind with
  | .pressed => { s with pressed := s.pressed ++ [b] }
  | .released => { s with released := s.released ++ [b] }

@[simp] theorem ensureInit_params (s : State) : (ensureInit s).params = s.params := rfl

@[simp] theorem ensureInit_bindings (s : State) (kind : Transition) :
    (ensureInit s).bindings kind = s.bindings kind := by cases kind <;> rfl

theorem exec_onButton {s : State} (hs : s.faultCause = none) (present : Bool) (kind : Transition)
    (cb : Handle) (code : ButtonCode) :
    exec (.onButton present kind cb code) s = .next (
      if 0x100 < code.toNat then { s with outputs := answered s .illegal 0 }
      else if (s.bindings kind).length < s.params.bindCap then
        withBinding kind { code := code, present := present, handle := if present then cb else 0 }
          { s with init := true, outputs := answered s .ok 0 }
      else { s with
        init := true, faultCause := some .bindOverflow, outputs := answered s .faulted 0 }) := by
  refine congrArg Host.Outcome.next ?_
  by_cases hcode : 0x100 < code.toNat
  · have hreserved : ¬ legalCode code = true := by simpa [legalCode] using hcode
    rw [if_pos hcode, if_neg hreserved, illegalCommand_of_unfaulted hs]
  · have hlegal : legalCode code = true := by simpa [legalCode] using hcode
    rw [if_neg hcode, if_pos hlegal, command_of_unfaulted _ s hs, onButtonBody,
      appendBinding_eq kind _ (ensureInit s) hs, ensureInit_bindings, ensureInit_params]
    by_cases hroom : (s.bindings kind).length < s.params.bindCap
    · rw [if_pos hroom, if_pos hroom]
      cases kind <;> rfl
    · rw [if_neg hroom, if_neg hroom]
      rfl

/-- Settles O12: one rule for both lists. -/
theorem onButtonRegistersBinding : Obligations.OnButtonRegistersBinding :=
  fun present cb code _ hs =>
    ⟨exec_onButton hs present .pressed cb code, exec_onButton hs present .released cb code⟩

/-! ### CB_RETURN -/

theorem exec_cbReturn_of_invoke {q : QueueKind} {s : State} (h : (s.queue q).phase = .invoke) :
    exec (.cbReturn q) s = .next (command (fun t => .done 0 (returnFromCallback q t)) s) :=
  congrArg Host.Outcome.next (if_pos h)

theorem exec_cbReturn_of_ne_invoke {q : QueueKind} {s : State} (h : (s.queue q).phase ≠ .invoke) :
    exec (.cbReturn q) s = .next (illegalCommand s) :=
  congrArg Host.Outcome.next (if_neg h)

/-- Settles O20: the fault is looked at before the phase. -/
theorem callbackReturnResumesLoop : Obligations.CallbackReturnResumesLoop := by
  intro q s
  by_cases hs : s.faultCause = none
  · rw [if_neg (not_not.2 hs)]
    by_cases hphase : (s.queue q).phase = .invoke
    · rw [if_pos hphase, exec_cbReturn_of_invoke hphase, command_of_unfaulted _ s hs]
      cases q <;> rfl
    · rw [if_neg hphase, exec_cbReturn_of_ne_invoke hphase, illegalCommand_of_unfaulted hs]
  · rw [if_pos hs]
    by_cases hphase : (s.queue q).phase = .invoke
    · rw [exec_cbReturn_of_invoke hphase, command_of_faulted _ s hs]
      rfl
    · rw [exec_cbReturn_of_ne_invoke hphase, illegalCommand_of_faulted hs]

/-! ### The values of READ_STATE -/

theorem exec_readState {q : QueueKind} {sel : BitVec 4} {s : State} {v w : Val}
    (hread : readValue q sel s = some v) (hv : v = w) :
    exec (.readState q sel) s = .next { s with outputs := answered s .ok w } := by
  subst hv
  simp only [exec, execReadState, hread]
  rfl

/-- A concatenation as a number: the upper part counts multiples of the lower part's range. -/
theorem toNat_append_eq {m n : Nat} (x : BitVec m) (y : BitVec n) :
    (x ++ y).toNat = x.toNat * 2 ^ n + y.toNat := by
  rw [BitVec.toNat_append, ← Nat.shiftLeft_add_eq_or_of_lt y.isLt, Nat.shiftLeft_eq]

theorem activeVal_eq (s : State) :
    activeVal s = BitVec.ofNat 32 (s.acValid.toNat * 256 + s.acCode.toNat) := by
  rw [activeVal, ← BitVec.ofNat_toNat, toNat_append_eq, BitVec.toNat_ofBool]
  rfl

theorem faulted_eq_decide (s : State) : s.faulted = decide (s.faultCause ≠ none) := by
  rw [Bool.eq_iff_iff, faulted_eq_true, decide_eq_true_iff]

theorem protocolBit_eq_decide (pr : Protocol) : protocolBit pr = decide (pr = .keyestudio) := by
  cases pr <;> rfl

theorem statusVal_eq (s : State) :
    statusVal s = BitVec.ofNat 32 (s.init.toNat + s.conn.toNat * 2
      + (decide (s.proto = .keyestudio)).toNat * 4 + s.newdg.toNat * 8
      + s.prio.created.toNat * 16 + s.cbq.created.toNat * 32
      + (decide (s.faultCause ≠ none)).toNat * 64) := by
  rw [statusVal, ← BitVec.ofNat_toNat, faulted_eq_decide, protocolBit_eq_decide]
  simp only [toNat_append_eq, BitVec.toNat_ofBool]
  congr 1
  omega

theorem phaseVal_eq (Q : Queue) :
    phaseVal Q = BitVec.ofNat 32 (Q.k * 65536 + (phaseCode Q.phase).toNat) := by
  apply BitVec.eq_of_toNat_eq
  rw [phaseVal, toNat_append_eq, toNat_append_eq, BitVec.toNat_ofNat, BitVec.toNat_ofNat]
  have hgap : (0 : BitVec 13).toNat = 0 := rfl
  have hcode := (phaseCode Q.phase).isLt
  omega

/-- Settles O19: each selector's value, as a number, is the table's. -/
theorem readStateAnswersSelector : Obligations.ReadStateAnswersSelector := by
  intro q s
  refine ⟨exec_readState rfl (BitVec.ofNat_toNat ..).symm,
    exec_readState rfl (BitVec.ofNat_toNat ..).symm, exec_readState rfl (activeVal_eq s),
    exec_readState rfl (BitVec.ofNat_toNat ..).symm,
    exec_readState rfl (BitVec.ofNat_toNat ..).symm,
    exec_readState rfl (BitVec.ofNat_toNat ..).symm, exec_readState rfl rfl,
    exec_readState rfl (statusVal_eq s), exec_readState rfl rfl, exec_readState rfl ?_,
    exec_readState rfl rfl, exec_readState rfl ((phaseVal_eq _).trans ?_)⟩
  · cases s.faultCause with
    | none => rfl
    | some cause => cases cause <;> rfl
  · cases (s.queue q).phase <;> rfl

end Sys2Proof.Machine
end

section
/-! PROOFS. The exceptions (60_exceptions.md): the answer to an ILLEGAL word (R232, R240), and what is
left to a faulted block: its answers and the clock (R233, R234). -/

namespace Sys2Proof.Machine

/-! ### Answers that write nothing else -/

/-- FAULTED takes precedence over ILLEGAL (R240). -/
theorem illegalCommand_eq (s : State) :
    illegalCommand s =
      { s with outputs := answered s (if s.faultCause = none then .illegal else .faulted) 0 } := by
  by_cases hs : s.faultCause = none
  · rw [if_pos hs, illegalCommand_of_unfaulted hs]
  · rw [if_neg hs, illegalCommand_of_faulted hs]

theorem runCommand_of_illegal {w : Word} {r : IllegalReason} (h : decode w = .error r) (s : State) :
    runCommand w s = .next (illegalCommand s) := by
  rw [runCommand, h]

/-- Settles O6: the move is taken off the agenda, and its word has no meaning but the answer. -/
theorem stepAnswersIllegalWord : Obligations.StepAnswersIllegalWord := by
  intro s w rest r hagenda hdecode
  rw [step_of_agenda hagenda, perform_command, runCommand_of_illegal hdecode, illegalCommand_eq]
  rfl

/-! ### The commands of a faulted block -/

theorem readValue_of_reserved {sel : BitVec 4} (h : 12 ≤ sel.toNat) (q : QueueKind) (s : State) :
    readValue q sel s = none := by
  unfold readValue
  split
  case h_13 => rfl
  all_goals omega

theorem exec_readState_of_none {q : QueueKind} {sel : BitVec 4} {s : State}
    (h : readValue q sel s = none) : exec (.readState q sel) s = .next (illegalCommand s) := by
  simp only [exec, execReadState, h]

section
variable {s t u : State}

/-- A faulted block answers FAULTED, 0 to every command but a READ_STATE whose selector has a value
(R234). -/
theorem exec_of_faulted (hs : s.faultCause ≠ none) (i : Instr) :
    exec i s = .next { s with outputs := answered s .faulted 0 } ∨
      ∃ q sel v, i = .readState q sel ∧ readValue q sel s = some v ∧
        exec i s = .next { s with outputs := answered s .ok v } := by
  have hcommand (body : State → Body Val) :
      command body s = { s with outputs := answered s .faulted 0 } :=
    command_of_faulted body s hs
  cases i with
  | nop => exact .inl (congrArg _ (hcommand _))
  | connect => exact .inl (congrArg _ (hcommand _))
  | onButton present kind cb code =>
    refine .inl ?_
    rw [exec, execOnButton, illegalCommand_of_faulted hs, hcommand, ite_self]
  | schedule => exact .inl (congrArg _ (hcommand _))
  | cancel => exact .inl (congrArg _ (hcommand _))
  | queryDatagram => exact .inl (congrArg _ (hcommand _))
  | readState q sel =>
    cases hread : readValue q sel s with
    | some v => exact .inr ⟨q, sel, v, rfl, hread, exec_readState hread rfl⟩
    | none => exact .inl (by rw [exec_readState_of_none hread, illegalCommand_of_faulted hs])
  | cbReturn q =>
    refine .inl ?_
    by_cases hphase : (s.queue q).phase = .invoke
    · rw [exec_cbReturn_of_invoke hphase, hcommand]
    · rw [exec_cbReturn_of_ne_invoke hphase, illegalCommand_of_faulted hs]

theorem exec_answers_of_faulted (hs : s.faultCause ≠ none) (i : Instr) :
    ∃ st v, exec i s = .next { s with outputs := answered s st v } := by
  rcases exec_of_faulted hs i with hexec | ⟨_, _, v, _, _, hexec⟩
  · exact ⟨_, _, hexec⟩
  · exact ⟨_, v, hexec⟩

/-- Settles O8: the one command with another answer is a READ_STATE of a selector that has a value,
and 12 to 15 have none. -/
theorem faultedCommandsAnswerFaulted : Obligations.FaultedCommandsAnswerFaulted := by
  intro i s hs hreserved
  rcases exec_of_faulted hs i with hfaulted | ⟨q, sel, v, hi, hread, _⟩
  · exact hfaulted
  · rw [readValue_of_reserved (hreserved q sel hi)] at hread
    cases hread

/-! ### The steps of a faulted block -/

theorem sameBlock.refl (s : State) : sameBlock s s := rfl

theorem sameBlock.trans (h : sameBlock s t) (h' : sameBlock t u) : sameBlock s u := by
  unfold sameBlock at h h' ⊢
  rw [h', h]

theorem sameBlock.faultCause (h : sameBlock s t) : t.faultCause = s.faultCause :=
  (congrArg State.faultCause h :)

theorem sameBlock_takeMove (s : State) : sameBlock s (takeMove s).2 := by
  unfold takeMove
  split <;> rfl

theorem outputs_takeMove (s : State) : (takeMove s).2.outputs = s.outputs := by
  unfold takeMove
  split <;> rfl

/-- All that a step of a faulted block may do: the fields that are not the block's own, and one
response at most. -/
structure BlockStopped (s t : State) : Prop where
  block : sameBlock s t
  outputs : t.outputs = s.outputs ∨ ∃ r, t.outputs = s.outputs ++ [.response r]

theorem BlockStopped.refl (s : State) : BlockStopped s s := ⟨.refl s, .inl rfl⟩

theorem blockStopped_answered (s : State) (st : Status) (v : Val) :
    BlockStopped s { s with outputs := answered s st v } := ⟨rfl, .inr ⟨_, rfl⟩⟩

theorem tick_blockStopped (n : Nat) (s : State) : BlockStopped s (tick n s) := by
  unfold tick
  split <;> exact ⟨rfl, .inl rfl⟩

theorem runCommand_blockStopped (hs : s.faultCause ≠ none) {w : Word}
    (h : runCommand w s = .next t) : BlockStopped s t := by
  cases hdecode : decode w with
  | ok i =>
    rw [runCommand_of_decode hdecode] at h
    obtain ⟨st, v, hexec⟩ := exec_answers_of_faulted hs i
    cases hexec.symm.trans h
    exact blockStopped_answered ..
  | error r =>
    rw [runCommand_of_illegal hdecode, illegalCommand_eq] at h
    cases h
    exact blockStopped_answered ..

/-- The pulse path is deaf and the loops stand; what remains is a command's answer and the clock
(R234). -/
theorem perform_blockStopped {m : Move} (hs : s.faultCause ≠ none) (hm : m ≠ .reset)
    (h : perform m s = .next t) : BlockStopped s t := by
  have hdeaf : s.listening = false := (listening_eq_false s).2 (.inr hs)
  cases m with
  | command w => exact runCommand_blockStopped hs h
  | pulse d => cases (perform_pulse_of_not_listening d hdeaf).symm.trans h; exact .refl s
  | edge e d => cases (perform_edge_of_not_listening e d hdeaf).symm.trans h; exact .refl s
  | tick n =>
    unfold perform at h
    split at h <;> cases h
    · exact tick_blockStopped n s
    · exact .refl s
  | reset => exact absurd rfl hm
  | loop q =>
    have hstands : perform (.loop q) s = .next s :=
      congrArg Host.Outcome.next (loopStep_of_faulted q hs)
    cases hstands.symm.trans h
    exact .refl s

end

/-- Settles O57: the move is taken off the agenda, which is the model's own field, and its agent finds
the block faulted. -/
theorem faultedBlockStops : Obligations.FaultedBlockStops := by
  intro s t hs hstep hm
  have htaken := sameBlock_takeMove s
  obtain ⟨hblock, houtputs⟩ :=
    perform_blockStopped (by rwa [htaken.faultCause]) hm hstep
  rw [outputs_takeMove] at houtputs
  exact ⟨htaken.trans hblock, houtputs⟩

end Sys2Proof.Machine
end

section
/-! PROOFS. The step of RESET (70_reset_and_hazards.md R260) against the reset table of 10_state.md
R49. -/

namespace Sys2Proof.Machine

/-- Settles O49: the step is the reset's own, which puts a queue that does not exist yet in both queue
records, the table's row for them. -/
theorem resetRestoresResetValues : Obligations.ResetRestoresResetValues := by
  intro s rest hagenda empty
  have hqueue : Queue.initial s.params = empty := rfl
  rw [step_of_agenda hagenda, perform_reset, resetBlock, State.powerUp, hqueue]

end Sys2Proof.Machine
end

section
/-! PROOFS. The model's own choices where the spec names no outcome: no step stops the machine (log
entries 5 and 9), operands that no word decodes to are ILLEGAL (log entry 10), and a command that
finds no fresh id only marks the run (44_scheduler.md R164, 60_exceptions.md R236, log entries 3
and 15). -/

namespace Sys2Proof.Machine

/-! ### Every step gives a next state -/

/-- Settles O7: whichever move is taken, its agent's atomic step gives a next state. -/
theorem everyStepHasNextState : Obligations.EveryStepHasNextState :=
  fun s => perform_next (takeMove s).1 (takeMove s).2

/-! ### Operands that no word decodes to -/

/-- Settles O13: a reserved code fails ON_BUTTON's range test, and a reserved selector has no value. -/
theorem reservedOperandsIllegal : Obligations.ReservedOperandsIllegal := by
  intro s hs
  refine ⟨fun present kind cb code hcode => ?_, fun q sel hsel => ?_⟩
  · rw [exec_onButton hs, if_pos hcode]
  · rw [exec_readState_of_none (readValue_of_reserved hsel q s), illegalCommand_of_unfaulted hs]

/-! ### Commands that find no fresh id -/

/-- A refused command writes REFUSED over the state before it, and is answered by a free response
(R236, log entry 3). -/
theorem answer_refused (s : State) (r : RefuseReason) :
    answer s (.refused r) =
      { s with
        refused := true
        choices := s.choices + 1
        outputs := s.outputs ++ [.response (Config.freeResponse s.choices)] } := rfl

/-- An accepted enqueue needs an id whatever queue, mode and callback it names (R164, R166). -/
theorem internalSchedule_refuses {s : State} (hs : s.faultCause = none)
    (hids : noFreshId s s.issued.length) {delay : Int} (hdelay : 0 ≤ delay) (cb : Callback)
    (q : QueueKind) (mode : Mode) :
    internalSchedule true cb q mode delay s = .refused .idExhausted := by
  have haccepted : ¬ (true = false ∨ delay < 0) := by simpa using hdelay
  rw [internalSchedule_eq _ _ _ _ _ _ hs, if_neg haccepted]
  exact if_pos hids

/-- The repeat-check job of the first CONNECT is such an enqueue (R202). -/
theorem connectBody_refuses {s : State} (hs : s.faultCause = none) (hconn : s.conn = false)
    (hids : noFreshId s s.issued.length) (pr : Protocol) :
    connectBody pr s = .refused .idExhausted := by
  have henqueue := internalSchedule_refuses (s := startDetection pr s) hs hids
    (delay := 120) (by decide) .repeatCheck .prio .repeating
  rw [connectBody_of_unconnected hconn, henqueue, andThen_refused]

/-- Settles O16: both bodies refuse at the draw, and a refusal undoes what CONNECT wrote before it. -/
theorem commandsRefuseWithoutFreshId : Obligations.CommandsRefuseWithoutFreshId := by
  intro s hs hids
  refine ⟨fun q mode cb delay hdelay => ⟨Config.freeResponse s.choices, ?_⟩,
    fun pr pin hconn => ⟨Config.freeResponse s.choices, ?_⟩⟩
  · rw [exec_schedule hs, internalSchedule_refuses hs hids hdelay, answer_refused]
  · rw [exec_connect hs, connectBody_refuses hs hconn hids, answer_refused]

end Sys2Proof.Machine
end
